-- ==== Sys2Proof/Word.lean ====
section
/-! DEFINITION. The widths of the machine's quantities (spec/00_scope.md rules R6, R9; spec/10_state.md rules R21 to R25).
All quantities are unsigned (R9), so no signed reading of a word is defined. -/

namespace Sys2Proof

/-- An 8-bit quantity: a general register, a timer, a memory byte, a framebuffer cell (R21, R27 to R30). -/
abbrev Byte := BitVec 8

/-- A 16-bit quantity: I, PC, a stack slot, an opcode (R23 to R25, R90). -/
abbrev Word := BitVec 16

/-- A 12-bit immediate address, the `nnn` of an opcode (R91, R93). -/
abbrev Addr := BitVec 12

/-- The index of one of the sixteen registers V0 to VF (R21): a name, never computed with as a word. -/
abbrev Reg := Fin 16

/-- VF, the general register that doubles as the one flag (R22). -/
abbrev VF : Reg := 15

end Sys2Proof
end

