-- ==== Sys2Proof/Syntax.lean ====
section
/-! DEFINITION. The instructions, one constructor per row of spec/opcode_table.json (spec/30_encoding.md rule R95), in
the table's order, with the operands of their formats (R91, R92). -/

namespace Sys2Proof

/-- One instruction. `x`, `y` are register indices, `kk` an immediate byte, `nnn` an immediate address, `n` a row
count 0..15 (R91, R93). -/
inductive Instr where
  /-- 0nnn other than 00E0, 00EE: `SYS addr` (R97, R123). -/
  | sys (nnn : Addr)
  /-- 00E0: `CLS` (R200). -/
  | cls
  /-- 00EE: `RET` (R124). -/
  | ret
  /-- 1nnn: `JP addr` (R125). -/
  | jp (nnn : Addr)
  /-- 2nnn: `CALL addr` (R126). -/
  | call (nnn : Addr)
  /-- 3xkk: `SE Vx,byte` (R127). -/
  | seByte (x : Reg) (kk : Byte)
  /-- 4xkk: `SNE Vx,byte` (R128). -/
  | sneByte (x : Reg) (kk : Byte)
  /-- 5xy0: `SE Vx,Vy` (R129). -/
  | seReg (x y : Reg)
  /-- 6xkk: `LD Vx,byte` (R151). -/
  | ldByte (x : Reg) (kk : Byte)
  /-- 7xkk: `ADD Vx,byte` (R152). -/
  | addByte (x : Reg) (kk : Byte)
  /-- 8xy0: `LD Vx,Vy` (R153). -/
  | ldReg (x y : Reg)
  /-- 8xy1: `OR Vx,Vy` (R154). -/
  | orReg (x y : Reg)
  /-- 8xy2: `AND Vx,Vy` (R155). -/
  | andReg (x y : Reg)
  /-- 8xy3: `XOR Vx,Vy` (R156). -/
  | xorReg (x y : Reg)
  /-- 8xy4: `ADD Vx,Vy` (R157). -/
  | addReg (x y : Reg)
  /-- 8xy5: `SUB Vx,Vy` (R158). -/
  | subReg (x y : Reg)
  /-- 8xy6: `SHR Vx,Vy` (R159). -/
  | shr (x y : Reg)
  /-- 8xy7: `SUBN Vx,Vy` (R160). -/
  | subn (x y : Reg)
  /-- 8xyE: `SHL Vx,Vy` (R161). -/
  | shl (x y : Reg)
  /-- 9xy0: `SNE Vx,Vy` (R130). -/
  | sneReg (x y : Reg)
  /-- Annn: `LD I,addr` (R180). -/
  | ldI (nnn : Addr)
  /-- Bnnn: `JP V0,addr` (R131). -/
  | jpV0 (nnn : Addr)
  /-- Cxkk: `RND Vx,byte` (R162). -/
  | rnd (x : Reg) (kk : Byte)
  /-- Dxyn: `DRW Vx,Vy,n` (R201). -/
  | drw (x y : Reg) (n : Fin 16)
  /-- Ex9E: `SKP Vx` (R220). -/
  | skp (x : Reg)
  /-- ExA1: `SKNP Vx` (R221). -/
  | sknp (x : Reg)
  /-- Fx07: `LD Vx,DT` (R223). -/
  | ldVxDt (x : Reg)
  /-- Fx0A: `LD Vx,K` (R222). -/
  | ldVxK (x : Reg)
  /-- Fx15: `LD DT,Vx` (R224). -/
  | ldDtVx (x : Reg)
  /-- Fx18: `LD ST,Vx` (R225). -/
  | ldStVx (x : Reg)
  /-- Fx1E: `ADD I,Vx` (R181). -/
  | addI (x : Reg)
  /-- Fx29: `LD F,Vx` (R182). -/
  | ldF (x : Reg)
  /-- Fx33: `LD B,Vx` (R183). -/
  | ldB (x : Reg)
  /-- Fx55: `LD [I],Vx` (R184). -/
  | storeRegs (x : Reg)
  /-- Fx65: `LD Vx,[I]` (R185). -/
  | loadRegs (x : Reg)
deriving DecidableEq, Repr

end Sys2Proof
end

