-- ==== Sys2Proof/Decode.lean ====
section
/-! DEFINITION. The decoder and, after it, the encoder (spec/30_encoding.md rules R90 to R97). -/

namespace Sys2Proof

/-- Why bytes are no instruction. `illegal` carries the word that DecodeError records (R241). -/
inductive Reject where
  | truncated
  | illegal (w : Word)
deriving DecidableEq, Repr

/-- `op` = bits 15:12 (R91). -/
def opField (w : Word) : BitVec 4 := w.extractLsb' 12 4

/-- `x` = bits 11:8 (R91). -/
def xField (w : Word) : Reg := (w.extractLsb' 8 4).toFin

/-- `y` = bits 7:4 (R91). -/
def yField (w : Word) : Reg := (w.extractLsb' 4 4).toFin

/-- `n` = bits 3:0 (R91), as the row count of DRW. -/
def nField (w : Word) : Fin 16 := (w.extractLsb' 0 4).toFin

/-- bits 3:0 (R91), as the sub-operation of families 5, 8, 9. -/
def subField (w : Word) : BitVec 4 := w.extractLsb' 0 4

/-- `kk` = bits 7:0 (R91). -/
def kkField (w : Word) : Byte := w.extractLsb' 0 8

/-- `nnn` = bits 11:0 (R91). -/
def nnnField (w : Word) : Addr := w.extractLsb' 0 12

/-- A word of family 0: the two full literals first, every other word is row 1, SYS (R94, R95, R97). -/
def decode0 (w : Word) : Except Reject Instr :=
  if w = 0x00E0 then .ok .cls
  else if w = 0x00EE then .ok .ret
  else .ok (.sys (nnnField w))

/-- A word of family 8: bits 3:0 select the operation, seven sub-codes are illegal (R95, R96). -/
def decode8 (w : Word) : Except Reject Instr :=
  match subField w with
  | 0x0 => .ok (.ldReg (xField w) (yField w))
  | 0x1 => .ok (.orReg (xField w) (yField w))
  | 0x2 => .ok (.andReg (xField w) (yField w))
  | 0x3 => .ok (.xorReg (xField w) (yField w))
  | 0x4 => .ok (.addReg (xField w) (yField w))
  | 0x5 => .ok (.subReg (xField w) (yField w))
  | 0x6 => .ok (.shr (xField w) (yField w))
  | 0x7 => .ok (.subn (xField w) (yField w))
  | 0xE => .ok (.shl (xField w) (yField w))
  | _ => .error (.illegal w)

/-- A word of family E: bits 7:0 select the operation (R95, R96). -/
def decodeE (w : Word) : Except Reject Instr :=
  match kkField w with
  | 0x9E => .ok (.skp (xField w))
  | 0xA1 => .ok (.sknp (xField w))
  | _ => .error (.illegal w)

/-- A word of family F: bits 7:0 select the operation (R95, R96). -/
def decodeF (w : Word) : Except Reject Instr :=
  match kkField w with
  | 0x07 => .ok (.ldVxDt (xField w))
  | 0x0A => .ok (.ldVxK (xField w))
  | 0x15 => .ok (.ldDtVx (xField w))
  | 0x18 => .ok (.ldStVx (xField w))
  | 0x1E => .ok (.addI (xField w))
  | 0x29 => .ok (.ldF (xField w))
  | 0x33 => .ok (.ldB (xField w))
  | 0x55 => .ok (.storeRegs (xField w))
  | 0x65 => .ok (.loadRegs (xField w))
  | _ => .error (.illegal w)

/-- `decode(w)` of R94: total on all 65536 words. A word of row 1 decodes to SYS, whose meaning is DecodeError (R97,
R123); every other word without a row is rejected as illegal (R96). -/
def decodeWord (w : Word) : Except Reject Instr :=
  match opField w with
  | 0x0 => decode0 w
  | 0x1 => .ok (.jp (nnnField w))
  | 0x2 => .ok (.call (nnnField w))
  | 0x3 => .ok (.seByte (xField w) (kkField w))
  | 0x4 => .ok (.sneByte (xField w) (kkField w))
  | 0x5 => if subField w = 0 then .ok (.seReg (xField w) (yField w)) else .error (.illegal w)
  | 0x6 => .ok (.ldByte (xField w) (kkField w))
  | 0x7 => .ok (.addByte (xField w) (kkField w))
  | 0x8 => decode8 w
  | 0x9 => if subField w = 0 then .ok (.sneReg (xField w) (yField w)) else .error (.illegal w)
  | 0xA => .ok (.ldI (nnnField w))
  | 0xB => .ok (.jpV0 (nnnField w))
  | 0xC => .ok (.rnd (xField w) (kkField w))
  | 0xD => .ok (.drw (xField w) (yField w) (nField w))
  | 0xE => decodeE w
  | _ => decodeF w

/-- Two bytes as an opcode: the byte at the lower address is opcode[15:8] (R66, R67). -/
def wordOfBytes (hi lo : Byte) : Word := hi ++ lo

/-- The high byte of a word, the one stored at the lower address (R67). -/
def hiByte (w : Word) : Byte := w.extractLsb' 8 8

/-- The low byte of a word, the one stored at the higher address (R67). -/
def loByte (w : Word) : Byte := w.extractLsb' 0 8

/-- Decoding from a byte stream: the first two bytes and the rest (R90: every instruction is one 16-bit opcode). -/
def decode : List Byte → Except Reject (Instr × List Byte)
  | hi :: lo :: rest => (decodeWord (wordOfBytes hi lo)).map (fun i => (i, rest))
  | [_] => .error .truncated
  | [] => .error .truncated

/-- The decoder on a word numbered as spec/opcode_table.json numbers it: one 16-bit word, stored high byte first. -/
def decodeTableWord (nbits w : Nat) : Option Instr :=
  let word : Word := BitVec.ofNat 16 (w % 2 ^ nbits)
  match decode [hiByte word, loByte word] with
  | .ok (i, _) => some i
  | .error _ => none

/-- Format A: `op n n n` (R92). -/
def packA (op : BitVec 4) (nnn : Addr) : Word := op ++ nnn

/-- Format XK: `op x k k` (R92). -/
def packXK (op : BitVec 4) (x : Reg) (kk : Byte) : Word := (op ++ (BitVec.ofFin x : BitVec 4)) ++ kk

/-- Formats XY and XYN: `op x y sub` and `D x y n` (R92). -/
def packXY (op : BitVec 4) (x y : Reg) (sub : BitVec 4) : Word :=
  (op ++ (BitVec.ofFin x : BitVec 4)) ++ ((BitVec.ofFin y : BitVec 4) ++ sub)

/-- The opcode of an instruction, from the opcode map (R95). -/
def encode : Instr → Word
  | .sys nnn => packA 0x0 nnn
  | .cls => 0x00E0
  | .ret => 0x00EE
  | .jp nnn => packA 0x1 nnn
  | .call nnn => packA 0x2 nnn
  | .seByte x kk => packXK 0x3 x kk
  | .sneByte x kk => packXK 0x4 x kk
  | .seReg x y => packXY 0x5 x y 0x0
  | .ldByte x kk => packXK 0x6 x kk
  | .addByte x kk => packXK 0x7 x kk
  | .ldReg x y => packXY 0x8 x y 0x0
  | .orReg x y => packXY 0x8 x y 0x1
  | .andReg x y => packXY 0x8 x y 0x2
  | .xorReg x y => packXY 0x8 x y 0x3
  | .addReg x y => packXY 0x8 x y 0x4
  | .subReg x y => packXY 0x8 x y 0x5
  | .shr x y => packXY 0x8 x y 0x6
  | .subn x y => packXY 0x8 x y 0x7
  | .shl x y => packXY 0x8 x y 0xE
  | .sneReg x y => packXY 0x9 x y 0x0
  | .ldI nnn => packA 0xA nnn
  | .jpV0 nnn => packA 0xB nnn
  | .rnd x kk => packXK 0xC x kk
  | .drw x y n => packXY 0xD x y (BitVec.ofFin n)
  | .skp x => packXK 0xE x 0x9E
  | .sknp x => packXK 0xE x 0xA1
  | .ldVxDt x => packXK 0xF x 0x07
  | .ldVxK x => packXK 0xF x 0x0A
  | .ldDtVx x => packXK 0xF x 0x15
  | .ldStVx x => packXK 0xF x 0x18
  | .addI x => packXK 0xF x 0x1E
  | .ldF x => packXK 0xF x 0x29
  | .ldB x => packXK 0xF x 0x33
  | .storeRegs x => packXK 0xF x 0x55
  | .loadRegs x => packXK 0xF x 0x65

/-- The bytes of an instruction in the order they stand in memory (R67). -/
def encodeBytes (i : Instr) : List Byte := [hiByte (encode i), loByte (encode i)]

end Sys2Proof
end

