-- ==== Sys2Proof/Config.lean ====
section
/-! DEFINITION. The implementation parameters the spec leaves open (spec/00_scope.md rule R7), each a type with the
values the spec lists for it, and the two free inputs that no rule constrains. The value the spec TAKES for each
parameter is `Config.taken` in Sys2Proof/Machine/Params.lean. -/

namespace Sys2Proof

/-- SYS_POLICY (R97, D2): what a word 0nnn other than 00E0, 00EE does. -/
inductive SysPolicy where
  | fault
  | nop
deriving DecidableEq, Repr

/-- SHIFT_SOURCE (R159, R161, D6): the register SHR and SHL shift. -/
inductive ShiftSource where
  | vx
  | vy
deriving DecidableEq, Repr

/-- VF_DEST_ORDER (R150, D7): how result and flag are written when VF is the destination of a flag-writing ALU
instruction. -/
inductive VfDestOrder where
  | flagLast
  | flagFirst
  | refuse
deriving DecidableEq, Repr

/-- I_STORE_MASK (R181, D4): `full` is 0xFFFF, `low12` is 0x0FFF. -/
inductive IStoreMask where
  | full
  | low12
deriving DecidableEq, Repr

/-- ADDR_OOR_POLICY (R65, D3, D5): what an address sum above 0x0FFF does. -/
inductive AddrOorPolicy where
  | wrap
  | fault
deriving DecidableEq, Repr

/-- KEY_INDEX_MODE (R220, R221, D10): what SKP and SKNP do with a register value above 15. -/
inductive KeyIndexMode where
  | mask4
  | notPressed
  | fault
deriving DecidableEq, Repr

/-- KEY_SCAN_WINNER (R222, D11): which pressed key LD Vx,K stores. -/
inductive KeyScanWinner where
  | lowest
  | highest
  | any
deriving DecidableEq, Repr

/-- DRW_REDRAW (R201, D12): when DRW raises `redraw_pending`. -/
inductive DrwRedraw where
  | always
  | onChange
deriving DecidableEq, Repr

/-- The parameters one CORE is built with (R7, R38): no rule ever writes one. -/
structure Config where
  /-- FONT (R64, D22): the 80 bytes `load` copies to 0x000. -/
  font : Vector Byte 80
  sysPolicy : SysPolicy
  shiftSource : ShiftSource
  vfDestOrder : VfDestOrder
  iStoreMask : IStoreMask
  addrOorPolicy : AddrOorPolicy
  keyIndexMode : KeyIndexMode
  keyScanWinner : KeyScanWinner
  drwRedraw : DrwRedraw
deriving DecidableEq, Repr

/-- FREE VALUE (R32, R260, D21; log entry 5): the byte the random source delivers at its n-th draw when no byte has
been supplied at the port. No rule constrains it and nothing here gives it a value. -/
opaque Config.freeByte : Nat → Byte

/-- FREE VALUE (R222, D11; log entry 6): the choice made at the n-th scan with KEY_SCAN_WINNER = any. It is used only
reduced modulo the number of pressed keys. -/
opaque Config.freeKeyPick : Nat → Nat

end Sys2Proof
end

