-- ==== Sys2Proof/Machine/Params.lean ====
section
/-! DEFINITION. The value the spec takes for every parameter of spec/00_scope.md rule R7 (log entries 1, 2). -/

namespace Sys2Proof

/-- One glyph: five sprite rows, top row first (R64). -/
def glyph (a b c d e : Byte) : Vector Byte 5 := #v[a, b, c, d, e]

/-- The customary hexadecimal font, five bytes a glyph, glyph d at 5*d (R64, D22). -/
def fontTable : Vector Byte 80 :=
  glyph 0xF0 0x90 0x90 0x90 0xF0 ++ glyph 0x20 0x60 0x20 0x20 0x70 ++
  glyph 0xF0 0x10 0xF0 0x80 0xF0 ++ glyph 0xF0 0x10 0xF0 0x10 0xF0 ++
  glyph 0x90 0x90 0xF0 0x10 0x10 ++ glyph 0xF0 0x80 0xF0 0x10 0xF0 ++
  glyph 0xF0 0x80 0xF0 0x90 0xF0 ++ glyph 0xF0 0x10 0x20 0x40 0x40 ++
  glyph 0xF0 0x90 0xF0 0x90 0xF0 ++ glyph 0xF0 0x90 0xF0 0x10 0xF0 ++
  glyph 0xF0 0x90 0xF0 0x90 0x90 ++ glyph 0xE0 0x90 0xE0 0x90 0xE0 ++
  glyph 0xF0 0x80 0x80 0x80 0xF0 ++ glyph 0xE0 0x90 0x90 0x90 0xE0 ++
  glyph 0xF0 0x80 0xF0 0x80 0xF0 ++ glyph 0xF0 0x80 0xF0 0x80 0x80

/-- The column "value taken" of R7 (decisions D2 to D7, D10 to D12, D22). -/
def Config.taken : Config where
  font := fontTable
  sysPolicy := .fault
  shiftSource := .vx
  vfDestOrder := .flagLast
  iStoreMask := .full
  addrOorPolicy := .wrap
  keyIndexMode := .mask4
  keyScanWinner := .lowest
  drwRedraw := .always

end Sys2Proof
end

