-- ==== Sys2Proof/Machine/State.lean ====
section
/-! DEFINITION. The Machine record (spec/10_state.md rule R20), why a step can stop, and the state after reset. -/

namespace Sys2Proof.Machine

/-- The four fatal errors and the information each records (R240, D29). They are recorded in `status` (R248), so a
step that raises one answers a next state (log entry 3). -/
inductive FatalError where
  /-- Raised by a step whose word matches no instruction, SYS included (R241). -/
  | decodeError (opcode : Word)
  /-- Raised by CALL with SP = 16 (R242). -/
  | stackOverflow (pc : Word)
  /-- Raised by RET with SP = 0 (R243). -/
  | stackUnderflow (pc : Word)
  /-- Raised by the host operation `load` on more than 3584 bytes (R244). -/
  | loadError (len : Nat)
deriving DecidableEq, Repr

/-- The `status` element (R35). -/
inductive Status where
  | unloaded
  | running
  | fault (e : FatalError)
deriving DecidableEq, Repr

/-- Stops without a next state. Both belong to values of a parameter that the spec lists and does not take (R7), so
no step of a machine with `Config.taken` reaches either (log entry 7). -/
inductive Fault where
  /-- Raised by a fetch, DRW, LD B, LD [I],Vx or LD Vx,[I] whose largest unreduced address sum exceeds 0x0FFF, with
  ADDR_OOR_POLICY = fault (R65). Safe: the machine stops where the other policy goes on. -/
  | addressOutOfRange (sum : Nat)
  /-- Raised by SKP and SKNP on a register value above 15, with KEY_INDEX_MODE = fault (R220, D10). Safe: the machine
  stops where the other modes go on. -/
  | keyIndexOutOfRange (value : Byte)
deriving DecidableEq, Repr

/-- Operations that are turned away with no effect. -/
inductive Refusal where
  /-- Answered by `exec` for an instruction that has no meaning yet; no arm does. Safe: nothing can be proved of it. -/
  | notModelled (mnemonic : String)
  /-- Answered by `step` in every status other than Running (R120, R248). Safe: it is what the spec says. -/
  | notRunning (status : Status)
  /-- Answered by ADD, SUB, SHR, SUBN, SHL (register forms) with x = F, with VF_DEST_ORDER = refuse (R150, U1). Safe:
  the form is given no meaning; no machine with `Config.taken` reaches it. -/
  | vfAsDestination
  /-- Answered by the host operation `set_key` on an index above 15 (R257). Safe: it is what the spec says. -/
  | keyOutsideMatrix (index : Nat)
  /-- Answered by the host operation `framebuffer_snapshot` while Unloaded (R262). Safe: it is what the spec says. -/
  | snapshotBeforeLoad
deriving DecidableEq, Repr

/-- The memory image (R29, R60): the bytes that differ from what `load` of an empty program leaves, addresses
strictly rising. -/
abbrev Memory := List Host.Cell

/-- The framebuffer (R30): 32 rows of 64 cells, `FB[x, y]` being cell x of row y. -/
abbrev Framebuffer := Vector (Vector Byte 64) 32

/-- The random source as a step reads it (R32, R260): the bytes a bench has supplied at the port and that are not yet
drawn, and the number of draws so far. The second is the MODEL's own counter (log entry 5). -/
structure RandomSource where
  supplied : List Byte
  drawn : Nat
deriving DecidableEq, Repr

/-- One Machine (R20), with `cfg`, the parameters it was built with (R7, R38; log entry 1), and `keyScans`, the MODEL's
counter of completed key scans (log entry 6). -/
structure State where
  cfg : Config
  /-- V0 to VF (R21, R22). -/
  v : Vector Byte 16
  /-- The address register I (R23). -/
  i : Word
  /-- The program counter (R24). -/
  pc : Word
  /-- The call-stack slots S[0] to S[15] (R25). -/
  stack : Vector Word 16
  /-- The stack pointer, 0 to 16 (R26). -/
  sp : Fin 17
  /-- The delay timer (R27). -/
  dt : Byte
  /-- The sound timer (R28). -/
  st : Byte
  /-- The memory image (R29). -/
  mem : Memory
  /-- The framebuffer (R30). -/
  fb : Framebuffer
  /-- The key matrix (R31). -/
  key : Vector Bool 16
  /-- The random source (R32). -/
  rnd : RandomSource
  keyScans : Nat
  /-- The flag `redraw_pending` (R33). -/
  redrawPending : Bool
  /-- The flag `sound_pending` (R34). -/
  soundPending : Bool
  /-- The machine status (R35). -/
  status : Status
deriving DecidableEq, Repr

/-- What one operation of the machine answers. -/
abbrev Result := Host.Outcome State Fault Refusal

/-- The framebuffer with every cell 0 (R30). -/
def Framebuffer.blank : Framebuffer := Vector.replicate 32 (Vector.replicate 64 0)

/-- The machine after reset (R41): power-on with all keys up (R31, R42), then a successful `load` of an empty program,
`load` being the only reset (R290, R292; log entry 4). -/
def State.reset : State where
  cfg := Config.taken
  v := Vector.replicate 16 0
  i := 0
  pc := 0x0200
  stack := Vector.replicate 16 0
  sp := 0
  dt := 0
  st := 0
  mem := []
  fb := Framebuffer.blank
  key := Vector.replicate 16 false
  rnd := { supplied := [], drawn := 0 }
  keyScans := 0
  redrawPending := false
  soundPending := false
  status := .running

end Sys2Proof.Machine
end

