-- ==== Sys2Proof/Machine/Ops.lean ====
section
/-! DEFINITION. The shared operations over registers, memory, stack, framebuffer, timers and status. -/

namespace Sys2Proof.Machine

/-! ### Memory (spec/20_memory.md) -/

/-- The effective address of a sum (R65). -/
def effective (sum : Nat) : Nat := sum % 4096

/-- What an unlisted address reads as: the contents after `load` of an empty program, the font and zeros (R61, R64,
R290). -/
def background (font : Vector Byte 80) (a : Nat) : Byte :=
  if h : a < 80 then font[a] else 0

/-- The byte listed at address `a`, if one is. -/
def Memory.find (a : Nat) : Memory → Option Byte
  | [] => none
  | c :: rest => if a = c.1 then some c.2 else Memory.find a rest

/-- The byte at address `a` over the background `bg`. -/
def Memory.read (bg : Nat → Byte) (m : Memory) (a : Nat) : Byte :=
  match Memory.find a m with
  | some b => b
  | none => bg a

/-- Put a listed byte at its place in rising address order. -/
def Memory.insert (a : Nat) (b : Byte) : Memory → Memory
  | [] => [(a, b)]
  | c :: rest => if a < c.1 then (a, b) :: c :: rest else c :: Memory.insert a b rest

/-- Set the byte at address `a`, keeping the canonical form. -/
def Memory.write (bg : Nat → Byte) (m : Memory) (a : Nat) (b : Byte) : Memory :=
  let others := m.filter (fun c => c.1 != a)
  if b = bg a then others else Memory.insert a b others

/-- The canonical form: addresses strictly rising and in the address space (R60), no entry equal to the background. -/
abbrev Memory.wf (bg : Nat → Byte) (m : Memory) : Prop :=
  (m.map Prod.fst).Pairwise (· < ·) ∧ ∀ c ∈ m, c.1 < 4096 ∧ c.2 ≠ bg c.1

/-- `MemRead(sum, 1)` (R12, R65). -/
def State.readByte (s : State) (sum : Nat) : Byte :=
  s.mem.read (background s.cfg.font) (effective sum)

/-- `MemWrite(sum, 1, b)` (R12, R66). -/
def State.writeByte (s : State) (sum : Nat) (b : Byte) : State :=
  { s with mem := s.mem.write (background s.cfg.font) (effective sum) b }

/-- The bytes at `base`, `base + 1`, … in ascending order (R71, R186). -/
def State.readBytes (s : State) (base n : Nat) : List Byte :=
  (List.range n).map (fun k => s.readByte (base + k))

/-- Bytes written to `base`, `base + 1`, … in ascending order (R71, R186). -/
def State.writeBytes (s : State) (base : Nat) : List Byte → State
  | [] => s
  | b :: bs => (s.writeByte base b).writeBytes (base + 1) bs

/-- ADDR_OOR_POLICY (R65): with `fault`, an access whose largest unreduced address sum is above 0x0FFF stops before it
has had any effect (log entry 7); with `wrap`, the access goes on. -/
def State.withAddress (s : State) (largest : Nat) (go : Result) : Result :=
  match s.cfg.addrOorPolicy with
  | .wrap => go
  | .fault => if 0x0FFF < largest then .fault (.addressOutOfRange largest) else go

/-! ### Registers (spec/10_state.md) -/

/-- `V[x]` read (R11, R21). -/
def State.getV (s : State) (x : Reg) : Byte := s.v[x.val]

/-- `V[x] <- b` (R11, R21). -/
def State.setV (s : State) (x : Reg) (b : Byte) : State := { s with v := s.v.set x.val b }

/-- `next` (R121). -/
def State.next (s : State) : State := { s with pc := s.pc + 2 }

/-- `skip` (R121). -/
def State.skip (s : State) : State := { s with pc := s.pc + 4 }

/-- "if … then skip else next" (R127 to R130, R220, R221). -/
def State.skipIf (s : State) (c : Bool) : State := if c then s.skip else s.next

/-- `V[0]` to `V[count-1]` stored at `base`, ascending (R184). -/
def State.storeRegs (s : State) (base : Nat) : Nat → State
  | 0 => s
  | k + 1 =>
    if h : k < 16 then (s.storeRegs base k).writeByte (base + k) (s.getV ⟨k, h⟩) else s.storeRegs base k

/-- `V[0]` to `V[count-1]` loaded from `base`, ascending (R185). -/
def State.loadRegs (s : State) (base : Nat) : Nat → State
  | 0 => s
  | k + 1 =>
    if h : k < 16 then (s.loadRegs base k).setV ⟨k, h⟩ (s.readByte (base + k)) else s.loadRegs base k

/-! ### Faults (spec/60_exceptions.md) -/

/-- Fault entry (R248): `status` records the fault and every other element keeps its value; there is no handler, no
vector and no return (R240, R249). -/
def State.raise (s : State) (e : FatalError) : State := { s with status := .fault e }

/-! ### Call stack (R25, R26) -/

/-- Push PC and jump (R126): `S[SP] <- PC; SP <- SP + 1; PC <- target`, or StackOverflow with no slot free. -/
def State.pushJump (s : State) (target : Word) : State :=
  if h : s.sp.val < 16 then
    { s with stack := s.stack.set s.sp.val s.pc, sp := ⟨s.sp.val + 1, by omega⟩, pc := target }
  else s.raise (.stackOverflow s.pc)

/-- Pop (R124): `SP <- SP - 1; PC <- S[SP] + 2`, the slot left unchanged, or StackUnderflow with none in use. -/
def State.popReturn (s : State) : State :=
  if h : s.sp.val = 0 then s.raise (.stackUnderflow s.pc)
  else { s with sp := ⟨s.sp.val - 1, by omega⟩, pc := s.stack[s.sp.val - 1] + 2 }

/-! ### Random source (R260) -/

/-- `draw_byte()`: the next supplied byte, or a free value when none is supplied. -/
def RandomSource.draw (r : RandomSource) : Byte × RandomSource :=
  match r.supplied with
  | b :: rest => (b, { supplied := rest, drawn := r.drawn + 1 })
  | [] => (Config.freeByte r.drawn, { supplied := [], drawn := r.drawn + 1 })

/-! ### Framebuffer (spec/43_display.md rule R202) -/

/-- `FB[x, y]`; outside the grid there is no cell. -/
def Framebuffer.cell (fb : Framebuffer) (x y : Nat) : Byte :=
  if h : x < 64 ∧ y < 32 then fb[y][x] else 0

/-- `FB[x, y] <- b`; outside the grid nothing happens. -/
def Framebuffer.setCell (fb : Framebuffer) (x y : Nat) (b : Byte) : Framebuffer :=
  if h : x < 64 ∧ y < 32 then fb.set y (fb[y].set x b) else fb

/-- A framebuffer being drawn on, and whether a lit cell has been flipped so far: the variables FB and `hit` of R201. -/
abbrev Drawing := Framebuffer × Bool

/-- One sprite bit onto the target pixel: a 1 bit toggles a cell on the screen, a target outside is skipped (R201). -/
def Drawing.pixel (d : Drawing) (px py : Nat) (bit : Bool) : Drawing :=
  if bit && decide (px < 64) && decide (py < 32) then
    (d.1.setCell px py (d.1.cell px py ^^^ 1), d.2 || d.1.cell px py != 0)
  else d

/-- One sprite row, bit 7 leftmost (R201). -/
def Drawing.row (d : Drawing) (x0 py : Nat) (b : Byte) : Drawing :=
  (List.range 8).foldl (fun d c => d.pixel (x0 + c) py (b.getLsbD (7 - c))) d

/-- The sprite rows from the top one down (R201). -/
def Drawing.rows (d : Drawing) (x0 y0 : Nat) : List Byte → Drawing
  | [] => d
  | b :: bs => (d.row x0 y0 b).rows x0 (y0 + 1) bs

/-- `draw(x, y, sprite_bytes)`: the new framebuffer and whether a collision occurred (R202). -/
def Framebuffer.draw (fb : Framebuffer) (x0 y0 : Nat) (sprite : List Byte) : Drawing :=
  Drawing.rows (fb, false) x0 y0 sprite

/-! ### The cycle (R120, R252) -/

/-- A timer after one tick: down by 1, floor 0 (R27, R252). -/
def countdown (t : Byte) : Byte := if t = 0 then 0 else t - 1

/-- `trigger` of R252: the sound timer's pre-decrement value is 1. -/
def State.trigger (s : State) : Bool := s.st == 1

/-- The tick (R252). -/
def State.tick (s : State) : State :=
  { s with dt := countdown s.dt, st := countdown s.st, soundPending := s.soundPending || s.trigger }

/-- The end of a cycle: the tick, unless the cycle raised a fault (R120, R248). -/
def State.endCycle (s : State) : State := if s.status = .running then s.tick else s

/-- Fetch of the opcode at PC (R66), then `go` with it; the larger address sum is PC + 1. -/
def State.fetch (s : State) (go : Word → Result) : Result :=
  s.withAddress (s.pc.toNat + 1)
    (go (wordOfBytes (s.readByte s.pc.toNat) (s.readByte (s.pc.toNat + 1))))

/-- A result with the end of the cycle applied to its next state. -/
def endOfCycle : Result → Result
  | .next s => .next s.endCycle
  | .fault r => .fault r
  | .refused r => .refused r

end Sys2Proof.Machine
end

