-- ==== Sys2Proof/Machine/Operands.lean ====
section
/-! DEFINITION. The operand forms of the instruction set (spec/30_encoding.md rules R91, R93, R100; spec/42_index_memory.md
rule R186). `Vx`, `Vy` are `State.getV`; `byte` is the immediate as it stands. -/

namespace Sys2Proof.Machine

/-- `addr` zero-extended to 16 bits, as it is written to PC and I (R93). -/
def addrWord (nnn : Addr) : Word := nnn.setWidth 16

/-- `addr + V0` (R131): a plain 16-bit sum. -/
def State.jumpTarget (s : State) (nnn : Addr) : Word := addrWord nnn + (s.getV 0).setWidth 16

/-- The operand SHR and SHL shift (R159, R161, D6). -/
def State.shiftOperand (s : State) (x y : Reg) : Byte :=
  match s.cfg.shiftSource with
  | .vx => s.getV x
  | .vy => s.getV y

/-- The address sum `I + k` (R23, R186), not yet reduced. -/
def State.atI (s : State) (k : Nat) : Nat := s.i.toNat + k

/-- The glyph address `Vx * 5`, the whole byte multiplied (R182). -/
def glyphAddress (b : Byte) : Word := BitVec.ofNat 16 (b.toNat * 5)

/-- The three decimal digits of a byte: hundreds, tens, ones (R183). -/
def bcdDigits (b : Byte) : List Byte :=
  [BitVec.ofNat 8 (b.toNat / 100), BitVec.ofNat 8 (b.toNat / 10 % 10), BitVec.ofNat 8 (b.toNat % 10)]

/-- The sprite of DRW: the `n` bytes at I, top row first (R201). -/
def State.sprite (s : State) (n : Nat) : List Byte := s.readBytes (s.atI 0) n

/-- The key a value of Vx names for SKP and SKNP (R220, D10), then `go` with whether it is pressed. -/
def State.withKey (s : State) (value : Byte) (go : Bool → Result) : Result :=
  match s.cfg.keyIndexMode with
  | .mask4 => go (s.key[value.toNat % 16]'(Nat.mod_lt _ (by decide)))
  | .notPressed => go (if h : value.toNat < 16 then s.key[value.toNat] else false)
  | .fault => if h : value.toNat < 16 then go s.key[value.toNat] else .fault (.keyIndexOutOfRange value)

/-- The indices of the pressed keys, ascending (R222). -/
def State.pressedKeys (s : State) : List Reg := (List.finRange 16).filter (fun k => s.key[k.val])

/-- The key LD Vx,K takes among pressed keys `k :: ks` (R222, D11). -/
def State.scanWinner (s : State) (k : Reg) (ks : List Reg) : Reg :=
  match s.cfg.keyScanWinner with
  | .lowest => k
  | .highest => (k :: ks).getLast (by simp)
  | .any => (k :: ks)[Config.freeKeyPick s.keyScans % (k :: ks).length]'(Nat.mod_lt _ (by simp))

end Sys2Proof.Machine
end

