-- ==== Sys2Proof/Machine/Flags.lean ====
section
/-! DEFINITION. The flag computations (spec/41_alu.md rules R150, R157 to R161, R164; spec/42_index_memory.md rule R181;
spec/10_state.md rule R22). Results are computed exactly on natural numbers and narrowed at the end (R10, R163). -/

namespace Sys2Proof.Machine

/-- A flag as the byte VF holds: 0 or 1 (R22). -/
def flagByte (c : Bool) : Byte := if c then 1 else 0

/-- A result byte and the flag that goes with it. -/
abbrev Flagged := Byte × Bool

/-- ADD (R157): the sum mod 256, and the carry. -/
def addFlagged (a b : Byte) : Flagged :=
  (BitVec.ofNat 8 (a.toNat + b.toNat), decide (255 < a.toNat + b.toNat))

/-- SUB (R158): the difference mod 256, and not-borrow. SUBN (R160) is this with its operands exchanged. -/
def subFlagged (a b : Byte) : Flagged :=
  (BitVec.ofNat 8 (a.toNat + 256 - b.toNat), decide (b.toNat ≤ a.toNat))

/-- SHR (R159): half the operand, and the bit shifted out. -/
def shrFlagged (a : Byte) : Flagged := (BitVec.ofNat 8 (a.toNat / 2), a.getLsbD 0)

/-- SHL (R161): twice the operand mod 256, and the bit shifted out. -/
def shlFlagged (a : Byte) : Flagged := (BitVec.ofNat 8 (2 * a.toNat), a.getLsbD 7)

/-- The 12-bit overflow of ADD I,Vx, on the unreduced sum (R181). -/
def overflow12 (sum : Nat) : Bool := decide (0x0FFF < sum)

/-- Writing result and flag of an ALU instruction in the order VF_DEST_ORDER says (R150, D7), then `next`. -/
def State.writeFlagged (s : State) (x : Reg) (r : Flagged) : Result :=
  match s.cfg.vfDestOrder with
  | .flagLast => .next ((s.setV x r.1).setV VF (flagByte r.2)).next
  | .flagFirst => .next ((s.setV VF (flagByte r.2)).setV x r.1).next
  | .refuse => if x = VF then .refused .vfAsDestination else .next ((s.setV x r.1).setV VF (flagByte r.2)).next

end Sys2Proof.Machine
end

