-- ==== Sys2Proof/Machine/Alu.lean ====
section
/-! DEFINITION. The 8-bit ALU instructions and RND (spec/41_alu.md). All operands are read from the state before the
instruction (R150). -/

namespace Sys2Proof.Machine

/-- `LD Vx,byte` (R151). -/
def execLdByte (x : Reg) (kk : Byte) (s : State) : Result := .next (s.setV x kk).next

/-- `ADD Vx,byte` (R152): the carry is discarded. -/
def execAddByte (x : Reg) (kk : Byte) (s : State) : Result := .next (s.setV x (addFlagged (s.getV x) kk).1).next

/-- `LD Vx,Vy` (R153). -/
def execLdReg (x y : Reg) (s : State) : Result := .next (s.setV x (s.getV y)).next

/-- `OR Vx,Vy` (R154). -/
def execOrReg (x y : Reg) (s : State) : Result := .next (s.setV x (s.getV x ||| s.getV y)).next

/-- `AND Vx,Vy` (R155). -/
def execAndReg (x y : Reg) (s : State) : Result := .next (s.setV x (s.getV x &&& s.getV y)).next

/-- `XOR Vx,Vy` (R156). -/
def execXorReg (x y : Reg) (s : State) : Result := .next (s.setV x (s.getV x ^^^ s.getV y)).next

/-- `ADD Vx,Vy` (R157). -/
def execAddReg (x y : Reg) (s : State) : Result := s.writeFlagged x (addFlagged (s.getV x) (s.getV y))

/-- `SUB Vx,Vy` (R158). -/
def execSubReg (x y : Reg) (s : State) : Result := s.writeFlagged x (subFlagged (s.getV x) (s.getV y))

/-- `SHR Vx,Vy` (R159). -/
def execShr (x y : Reg) (s : State) : Result := s.writeFlagged x (shrFlagged (s.shiftOperand x y))

/-- `SUBN Vx,Vy` (R160). -/
def execSubn (x y : Reg) (s : State) : Result := s.writeFlagged x (subFlagged (s.getV y) (s.getV x))

/-- `SHL Vx,Vy` (R161). -/
def execShl (x y : Reg) (s : State) : Result := s.writeFlagged x (shlFlagged (s.shiftOperand x y))

/-- `RND Vx,byte` (R162): exactly one byte is drawn, also when kk = 0. -/
def execRnd (x : Reg) (kk : Byte) (s : State) : Result :=
  .next (({ s with rnd := s.rnd.draw.2 } : State).setV x (s.rnd.draw.1 &&& kk)).next

end Sys2Proof.Machine
end

