-- ==== Sys2Proof/Machine/Display.lean ====
section
/-! DEFINITION. The display instructions (spec/43_display.md). -/

namespace Sys2Proof.Machine

/-- `CLS` (R200): `clear()` of R202 and a redraw request. -/
def execCls (s : State) : Result := .next { s with fb := Framebuffer.blank, redrawPending := true }.next

/-- `redraw_pending` after a DRW that leaves the framebuffer `fb` (R201, D12). -/
def State.redrawAfter (s : State) (fb : Framebuffer) : Bool :=
  match s.cfg.drwRedraw with
  | .always => true
  | .onChange => s.redrawPending || decide (fb ≠ s.fb)

/-- The effect of DRW on framebuffer, flags and VF, VF written last (R201). -/
def State.drawSprite (s : State) (d : Drawing) : State :=
  ({ s with fb := d.1, redrawPending := s.redrawAfter d.1 } : State).setV VF (flagByte d.2)

/-- `DRW Vx,Vy,n` (R201). With n = 0 no byte is read, so no address sum can be out of range. -/
def execDrw (x y : Reg) (n : Fin 16) (s : State) : Result :=
  s.withAddress (if n.val = 0 then 0 else s.atI (n.val - 1))
    (.next (s.drawSprite (s.fb.draw (s.getV x).toNat (s.getV y).toNat (s.sprite n.val))).next)

end Sys2Proof.Machine
end

