-- ==== Sys2Proof/Machine/Flow.lean ====
section
/-! DEFINITION. Control transfer (spec/40_cycle_and_flow.md): SYS, RET, JP, CALL, the compare-and-skip instructions,
JP V0. -/

namespace Sys2Proof.Machine

/-- `SYS addr` (R97, R123): DecodeError carrying the opcode 0nnn, or nothing but `next` with SYS_POLICY = nop. -/
def execSys (nnn : Addr) (s : State) : Result :=
  match s.cfg.sysPolicy with
  | .fault => .next (s.raise (.decodeError (encode (.sys nnn))))
  | .nop => .next s.next

/-- `RET` (R124). -/
def execRet (s : State) : Result := .next s.popReturn

/-- `JP addr` (R125). -/
def execJp (nnn : Addr) (s : State) : Result := .next { s with pc := addrWord nnn }

/-- `CALL addr` (R126). -/
def execCall (nnn : Addr) (s : State) : Result := .next (s.pushJump (addrWord nnn))

/-- `SE Vx,byte` (R127). -/
def execSeByte (x : Reg) (kk : Byte) (s : State) : Result := .next (s.skipIf (s.getV x == kk))

/-- `SNE Vx,byte` (R128). -/
def execSneByte (x : Reg) (kk : Byte) (s : State) : Result := .next (s.skipIf (s.getV x != kk))

/-- `SE Vx,Vy` (R129). -/
def execSeReg (x y : Reg) (s : State) : Result := .next (s.skipIf (s.getV x == s.getV y))

/-- `SNE Vx,Vy` (R130). -/
def execSneReg (x y : Reg) (s : State) : Result := .next (s.skipIf (s.getV x != s.getV y))

/-- `JP V0,addr` (R131). -/
def execJpV0 (nnn : Addr) (s : State) : Result := .next { s with pc := s.jumpTarget nnn }

end Sys2Proof.Machine
end

