-- ==== Sys2Proof/Machine/Index.lean ====
section
/-! DEFINITION. The index-register and memory instructions (spec/42_index_memory.md). -/

namespace Sys2Proof.Machine

/-- `LD I,addr` (R180). -/
def execLdI (nnn : Addr) (s : State) : Result := .next { s with i := addrWord nnn }.next

/-- The sum as ADD I,Vx stores it (R181, D4). -/
def State.storedI (s : State) (sum : Nat) : Word :=
  match s.cfg.iStoreMask with
  | .full => BitVec.ofNat 16 sum
  | .low12 => BitVec.ofNat 16 (sum % 4096)

/-- `ADD I,Vx` (R181): the flag is computed on the unreduced sum and written last. -/
def execAddI (x : Reg) (s : State) : Result :=
  let sum := s.i.toNat + (s.getV x).toNat
  .next (({ s with i := s.storedI sum } : State).setV VF (flagByte (overflow12 sum))).next

/-- `LD F,Vx` (R182). -/
def execLdF (x : Reg) (s : State) : Result := .next { s with i := glyphAddress (s.getV x) }.next

/-- `LD B,Vx` (R183). -/
def execLdB (x : Reg) (s : State) : Result :=
  s.withAddress (s.atI 2) (.next (s.writeBytes (s.atI 0) (bcdDigits (s.getV x))).next)

/-- `LD [I],Vx` (R184): V0 to Vx inclusive, I unchanged. -/
def execStoreRegs (x : Reg) (s : State) : Result :=
  s.withAddress (s.atI x.val) (.next (s.storeRegs (s.atI 0) (x.val + 1)).next)

/-- `LD Vx,[I]` (R185): V0 to Vx inclusive, I unchanged. -/
def execLoadRegs (x : Reg) (s : State) : Result :=
  s.withAddress (s.atI x.val) (.next (s.loadRegs (s.atI 0) (x.val + 1)).next)

end Sys2Proof.Machine
end

