-- ==== Sys2Proof/Machine/Input.lean ====
section
/-! DEFINITION. The key-matrix and timer instructions (spec/44_input_timers.md). -/

namespace Sys2Proof.Machine

/-- `SKP Vx` (R220). -/
def execSkp (x : Reg) (s : State) : Result := s.withKey (s.getV x) (fun down => .next (s.skipIf down))

/-- `SKNP Vx` (R221). -/
def execSknp (x : Reg) (s : State) : Result := s.withKey (s.getV x) (fun down => .next (s.skipIf (!down)))

/-- `LD Vx,DT` (R223). -/
def execLdVxDt (x : Reg) (s : State) : Result := .next (s.setV x s.dt).next

/-- `LD Vx,K` (R222): with no key pressed the instruction holds, changing nothing. -/
def execLdVxK (x : Reg) (s : State) : Result :=
  match s.pressedKeys with
  | [] => .next s
  | k :: ks =>
    .next (({ s with keyScans := s.keyScans + 1 } : State).setV x (BitVec.ofNat 8 (s.scanWinner k ks).val)).next

/-- `LD DT,Vx` (R224). -/
def execLdDtVx (x : Reg) (s : State) : Result := .next { s with dt := s.getV x }.next

/-- `LD ST,Vx` (R225). -/
def execLdStVx (x : Reg) (s : State) : Result := .next { s with st := s.getV x }.next

end Sys2Proof.Machine
end

