-- ==== Sys2Proof/Machine/Step.lean ====
section
/-! DEFINITION. One cycle (spec/40_cycle_and_flow.md rule R120), and the placing of an instruction where the next
cycle fetches it. -/

namespace Sys2Proof.Machine

/-- Steps 2 to 4 of the cycle on a fetched word: decode, execute, end of cycle; a word that is no instruction raises
DecodeError, with no tick (R120, R241). -/
def runWord (s : State) (w : Word) : Result :=
  match decodeWord w with
  | .ok i => endOfCycle (exec i s)
  | .error _ => .next (s.raise (.decodeError w))

/-- `step` (R120): admitted only in status Running. -/
def step (s : State) : Host.Outcome State Fault Refusal :=
  match s.status with
  | .running => s.fetch (runWord s)
  | .unloaded => .refused (.notRunning .unloaded)
  | .fault e => .refused (.notRunning (.fault e))

/-- The instruction word `w` stored at PC and PC + 1, high byte first (R66, R67), and the machine set running, so that
the next step fetches and runs it. This stands for the host's `load` (log entry 4). -/
def State.withFetchWord (s : State) (nbits w : Nat) : State :=
  let word : Word := BitVec.ofNat 16 (w % 2 ^ nbits)
  let t := (s.writeByte s.pc.toNat (hiByte word)).writeByte (s.pc.toNat + 1) (loByte word)
  { t with status := .running }

end Sys2Proof.Machine
end

