-- ==== Sys2Proof/Machine/HostOps.lean ====
section
/-! DEFINITION. What the host can do to the machine between cycles, complete (spec/60_exceptions.md rule R262), `load`
being the reset (spec/70_reset_and_hazards.md rules R290 to R292). -/

namespace Sys2Proof.Machine

/-- The state a successful `load` leaves (R290): memory is the font, zeros and the program; KEY and the random source
are not touched. -/
def State.loaded (s : State) (bytes : List Byte) : State :=
  ({ s with
      v := Vector.replicate 16 0, i := 0, pc := 0x0200, stack := Vector.replicate 16 0, sp := 0, dt := 0, st := 0,
      mem := [], fb := Framebuffer.blank, redrawPending := false, soundPending := false,
      status := .running } : State).writeBytes 0x200 bytes

/-- `load(bytes)` (R290, R291): an oversized program leaves the state of an empty one and LoadError. -/
def State.load (s : State) (bytes : List Byte) : State :=
  if bytes.length + 0x200 ≤ 4096 then s.loaded bytes else (s.loaded []).raise (.loadError bytes.length)

/-- A machine just constructed (R42, R292): every element but status, keys and flags may hold anything. -/
def State.PowerOn (s : State) : Prop :=
  s.status = .unloaded ∧ (∀ k : Fin 16, s.key[k.val] = false) ∧ s.redrawPending = false ∧ s.soundPending = false

/-- `set_key(i, p)` (R257). -/
def State.setKey (s : State) (index : Nat) (pressed : Bool) : Result :=
  if h : index < 16 then .next { s with key := s.key.set index pressed } else .refused (.keyOutsideMatrix index)

/-- `ack_redraw()` (R258). -/
def State.ackRedraw (s : State) : State := { s with redrawPending := false }

/-- `ack_sound()` (R258). -/
def State.ackSound (s : State) : State := { s with soundPending := false }

/-- `framebuffer_snapshot()` (R256): cell (x, y) is element y*64 + x. -/
def State.framebufferSnapshot (s : State) : List Byte := (s.fb.toList.map Vector.toList).flatten

/-- `sound_active` (R36, R253). -/
def State.soundActive (s : State) : Bool := s.st != 0

/-- The bytes a bench supplies at the `rnd` port, taken in order by later draws (R260, R261). -/
def State.supplyRandom (s : State) (bytes : List Byte) : State :=
  { s with rnd := { s.rnd with supplied := s.rnd.supplied ++ bytes } }

/-- The code of a fault (R240). -/
def FatalError.code : FatalError → Nat
  | .decodeError _ => 1
  | .stackOverflow _ => 2
  | .stackUnderflow _ => 3
  | .loadError _ => 4

/-- The output ports (R36, R261). -/
structure Outputs where
  fb : List Byte
  redrawPending : Bool
  soundPending : Bool
  soundActive : Bool
  status : Status
deriving DecidableEq, Repr

/-- The outputs as they stand between cycles (R36, R261). -/
def State.outputs (s : State) : Outputs where
  fb := s.framebufferSnapshot
  redrawPending := s.redrawPending
  soundPending := s.soundPending
  soundActive := s.soundActive
  status := s.status

/-- The host's operations (R262). -/
inductive Operation where
  | load (bytes : List Byte)
  | step
  | setKey (index : Nat) (pressed : Bool)
  | framebufferSnapshot
  | redrawPending
  | soundPending
  | ackRedraw
  | ackSound
deriving DecidableEq, Repr

/-- What an operation does to the machine (R262, columns "admitted when" and "effect"). -/
def Operation.perform (op : Operation) (s : State) : Result :=
  match op with
  | .load bytes => .next (s.load bytes)
  | .step => Machine.step s
  | .setKey index pressed => s.setKey index pressed
  | .framebufferSnapshot => if s.status = .unloaded then .refused .snapshotBeforeLoad else .next s
  | .redrawPending => .next s
  | .soundPending => .next s
  | .ackRedraw => .next s.ackRedraw
  | .ackSound => .next s.ackSound

/-- What an admitted operation returns to the host (R262, column "result"). -/
inductive Reply where
  | none
  | ok
  | error (e : FatalError)
  | flag (b : Bool)
  | cells (fb : List Byte)
deriving DecidableEq, Repr

/-- The result of `load` and `step` is what `status` records (R35, R37, R248). -/
def Status.reply : Status → Reply
  | .fault e => .error e
  | .running => .ok
  | .unloaded => .ok

/-- What the host reads from operation `op` performed in state `s` with next state `t` (R262). -/
def Operation.reply (op : Operation) (s t : State) : Reply :=
  match op with
  | .load _ => t.status.reply
  | .step => t.status.reply
  | .setKey _ _ => .none
  | .framebufferSnapshot => .cells s.framebufferSnapshot
  | .redrawPending => .flag s.redrawPending
  | .soundPending => .flag s.soundPending
  | .ackRedraw => .none
  | .ackSound => .none

end Sys2Proof.Machine
end

