-- ==== Sys2Proof/Safety.lean ====
section
/-! DEFINITION. The terms in which claims about the machine are made: its invariant, its reachable states, runs, and
the end of a run. -/

namespace Sys2Proof.Machine

/-- The invariant (R39): memory is in canonical form, every framebuffer cell is 0 or 1, `status` is Running or a Fault,
and with I_STORE_MASK = 0x0FFF also I ≤ 0x0FFF. The other bounds of R39 hold by the types of the elements. -/
structure State.Inv (s : State) : Prop where
  mem_wf : s.mem.wf (background s.cfg.font)
  fb_binary : ∀ x y : Nat, s.fb.cell x y = 0 ∨ s.fb.cell x y = 1
  loaded : s.status ≠ .unloaded
  i_low12 : s.cfg.iStoreMask = .low12 → s.i.toNat ≤ 0x0FFF

/-- The states reachable from a successful `load` by `step` and host operations (R18, R39). -/
inductive Reachable : State → Prop where
  | loaded (s : State) (bytes : List Byte) (h : bytes.length + 0x200 ≤ 4096) : Reachable (s.load bytes)
  | operation (s t : State) (op : Operation) (hs : Reachable s) (ht : op.perform s = .next t) : Reachable t

/-- `n` cycles, stopping at the first that answers no next state (R18). -/
def cycles : Nat → State → Result
  | 0, s => .next s
  | n + 1, s =>
    match step s with
    | .next t => cycles n t
    | .fault r => .fault r
    | .refused r => .refused r

/-- A run of `n` cycles in which nothing faults (R18, R299): it ends in status Running. -/
def SafeRun (n : Nat) (s : State) : Prop := ∃ t, cycles n s = .next t ∧ t.status = .running

/-- The opcode at PC (R66). -/
def State.opcodeAtPc (s : State) : Word := wordOfBytes (s.readByte s.pc.toNat) (s.readByte (s.pc.toNat + 1))

/-- An idle state (R300): Running, and the instruction at PC is a JP to PC itself. -/
def State.Idle (s : State) : Prop :=
  s.status = .running ∧ ∃ nnn : Addr, decodeWord s.opcodeAtPc = .ok (.jp nnn) ∧ s.pc = addrWord nnn

/-- A fixed point of `step` (R300). -/
def State.FixedPoint (s : State) : Prop := step s = .next s

/-- A run that has ended in an idle state, one of the two readings of END_OF_RUN (R300, D26); the other is `cycles`. -/
def EndsIdle (s : State) : Prop := ∃ n t, cycles n s = .next t ∧ t.Idle

/-- What a program can tell of a state: everything but the parameters and `redraw_pending` (R7, R33, R38). -/
def State.view (s : State) : State := { s with cfg := Config.taken, redrawPending := false }

/-- A result with its next state as the program sees it. -/
def viewResult : Result → Result
  | .next s => .next s.view
  | .fault r => .fault r
  | .refused r => .refused r

/-- `KEY[k]` (R31); there is no key above 15. -/
def State.keyDown (s : State) (k : Nat) : Bool := if h : k < 16 then s.key[k] else false

/-- The general registers an instruction may write: its destination, and VF where it is written as the flag (R22, and
the pseudocode of each instruction's rule). -/
def writesV (i : Instr) (r : Reg) : Bool :=
  match i with
  | .ldByte x _ | .addByte x _ | .ldReg x _ | .orReg x _ | .andReg x _ | .xorReg x _ | .rnd x _ | .ldVxDt x
  | .ldVxK x => r == x
  | .addReg x _ | .subReg x _ | .shr x _ | .subn x _ | .shl x _ => r == x || r == VF
  | .drw _ _ _ | .addI _ => r == VF
  | .loadRegs x => decide (r ≤ x)
  | .sys _ | .cls | .ret | .jp _ | .call _ | .seByte _ _ | .sneByte _ _ | .seReg _ _ | .sneReg _ _ | .ldI _ | .jpV0 _
  | .skp _ | .sknp _ | .ldDtVx _ | .ldStVx _ | .ldF _ | .ldB _ | .storeRegs _ => false

/-- Whether a sprite drawn at (x0, y0) has a 1 bit for the pixel (px, py): row py - y0, bit 7 leftmost (R201). -/
def spriteBit (sprite : List Byte) (x0 y0 px py : Nat) : Bool :=
  decide (x0 ≤ px ∧ px < x0 + 8 ∧ y0 ≤ py) &&
    match sprite[py - y0]? with
    | some b => b.getLsbD (7 - (px - x0))
    | none => false

/-- The largest address sum an instruction forms on data, if it forms one (R69, R187). -/
def State.dataSum (s : State) : Instr → Option Nat
  | .drw _ _ n => if n.val = 0 then none else some (s.i.toNat + (n.val - 1))
  | .ldB _ => some (s.i.toNat + 2)
  | .storeRegs x => some (s.i.toNat + x.val)
  | .loadRegs x => some (s.i.toNat + x.val)
  | .sys _ | .cls | .ret | .jp _ | .call _ | .seByte _ _ | .sneByte _ _ | .seReg _ _ | .ldByte _ _ | .addByte _ _
  | .ldReg _ _ | .orReg _ _ | .andReg _ _ | .xorReg _ _ | .addReg _ _ | .subReg _ _ | .shr _ _ | .subn _ _
  | .shl _ _ | .sneReg _ _ | .ldI _ | .jpV0 _ | .rnd _ _ | .skp _ | .sknp _ | .ldVxDt _ | .ldVxK _ | .ldDtVx _
  | .ldStVx _ | .addI _ | .ldF _ => none

/-- The column "insensitive when" of R7 for the execution of `i` in state `s`, for each parameter on which the
parameters of `s` and `c` differ; FONT is kept equal, and DRW_REDRAW needs nothing since `State.view` ignores
`redraw_pending`. -/
structure InsensitiveTo (s : State) (i : Instr) (c : Config) : Prop where
  font : c.font = s.cfg.font
  sysPolicy : c.sysPolicy = s.cfg.sysPolicy ∨ ∀ nnn, i ≠ .sys nnn
  shiftSource : c.shiftSource = s.cfg.shiftSource ∨ ∀ x y, i = .shr x y ∨ i = .shl x y → x = y
  vfDestOrder : c.vfDestOrder = s.cfg.vfDestOrder ∨
    ∀ x y, i = .addReg x y ∨ i = .subReg x y ∨ i = .shr x y ∨ i = .subn x y ∨ i = .shl x y → x ≠ VF
  iStoreMask : c.iStoreMask = s.cfg.iStoreMask ∨ ∀ x, i = .addI x → s.i.toNat + (s.getV x).toNat ≤ 0x0FFF
  addrOorPolicy : c.addrOorPolicy = s.cfg.addrOorPolicy ∨
    (s.pc.toNat + 1 ≤ 0x0FFF ∧ ∀ sum, s.dataSum i = some sum → sum ≤ 0x0FFF)
  keyIndexMode : c.keyIndexMode = s.cfg.keyIndexMode ∨ ∀ x, i = .skp x ∨ i = .sknp x → (s.getV x).toNat ≤ 15
  keyScanWinner : c.keyScanWinner = s.cfg.keyScanWinner ∨ ∀ x, i = .ldVxK x → s.pressedKeys.length ≤ 1

end Sys2Proof.Machine
end

