-- ==== Sys2Proof/Certificates/Slice0/Obligations.lean ====
section
/-! DEFINITION. The statements about the machine that the provers are asked to settle. -/

open Sys2Proof Sys2Proof.Machine

/-! ### Encoding (spec/30_encoding.md) -/

/-- R90, R93, R95: every well-formed instruction is read back from its two bytes, with every operand, and what follows
is left in the stream. -/
def Obligations.DecodeOfEncode : Prop :=
  ∀ (i : Instr) (rest : List Byte), i.wellFormed = true → decode (encodeBytes i ++ rest) = .ok (i, rest)

/-- R94, R98: a word that decodes is the encoding of the instruction it decodes to, which is well formed. -/
def Obligations.EncodeOfDecode : Prop :=
  ∀ (w : Word) (i : Instr), decodeWord w = .ok i → i.wellFormed = true ∧ encode i = w

/-- A row of the opcode map (R95) for a word: mask, match, and the instruction with the word's operands. -/
structure OpcodeRow where
  mask : Word
  pattern : Word
  instr : Instr

/-- Rows 2 to 35 of the opcode map (R95), with the operands of `w` (R91). -/
def opcodeRows (w : Word) : List OpcodeRow :=
  let x : Reg := Fin.ofNat 16 (w.toNat / 256)
  let y : Reg := Fin.ofNat 16 (w.toNat / 16)
  let n : Fin 16 := Fin.ofNat 16 w.toNat
  let kk : Byte := BitVec.ofNat 8 w.toNat
  let nnn : Addr := BitVec.ofNat 12 w.toNat
  [⟨0xFFFF, 0x00E0, .cls⟩, ⟨0xFFFF, 0x00EE, .ret⟩, ⟨0xF000, 0x1000, .jp nnn⟩, ⟨0xF000, 0x2000, .call nnn⟩,
   ⟨0xF000, 0x3000, .seByte x kk⟩, ⟨0xF000, 0x4000, .sneByte x kk⟩, ⟨0xF00F, 0x5000, .seReg x y⟩,
   ⟨0xF000, 0x6000, .ldByte x kk⟩, ⟨0xF000, 0x7000, .addByte x kk⟩, ⟨0xF00F, 0x8000, .ldReg x y⟩,
   ⟨0xF00F, 0x8001, .orReg x y⟩, ⟨0xF00F, 0x8002, .andReg x y⟩, ⟨0xF00F, 0x8003, .xorReg x y⟩,
   ⟨0xF00F, 0x8004, .addReg x y⟩, ⟨0xF00F, 0x8005, .subReg x y⟩, ⟨0xF00F, 0x8006, .shr x y⟩,
   ⟨0xF00F, 0x8007, .subn x y⟩, ⟨0xF00F, 0x800E, .shl x y⟩, ⟨0xF00F, 0x9000, .sneReg x y⟩,
   ⟨0xF000, 0xA000, .ldI nnn⟩, ⟨0xF000, 0xB000, .jpV0 nnn⟩, ⟨0xF000, 0xC000, .rnd x kk⟩,
   ⟨0xF000, 0xD000, .drw x y n⟩, ⟨0xF0FF, 0xE09E, .skp x⟩, ⟨0xF0FF, 0xE0A1, .sknp x⟩,
   ⟨0xF0FF, 0xF007, .ldVxDt x⟩, ⟨0xF0FF, 0xF00A, .ldVxK x⟩, ⟨0xF0FF, 0xF015, .ldDtVx x⟩,
   ⟨0xF0FF, 0xF018, .ldStVx x⟩, ⟨0xF0FF, 0xF01E, .addI x⟩, ⟨0xF0FF, 0xF029, .ldF x⟩,
   ⟨0xF0FF, 0xF033, .ldB x⟩, ⟨0xF0FF, 0xF055, .storeRegs x⟩, ⟨0xF0FF, 0xF065, .loadRegs x⟩]

/-- R94, R95: a word that matches a row is that row's instruction; row 1 takes the words of family 0 that are neither
literal; a word that matches no row is rejected as illegal. -/
def Obligations.OpcodeMapDecides : Prop :=
  ∀ w : Word,
    (∀ row ∈ opcodeRows w, w &&& row.mask = row.pattern → decodeWord w = .ok row.instr) ∧
    (w &&& 0xF000 = 0x0000 → w ≠ 0x00E0 → w ≠ 0x00EE → decodeWord w = .ok (.sys (BitVec.ofNat 12 w.toNat))) ∧
    (w &&& 0xF000 ≠ 0x0000 → (∀ row ∈ opcodeRows w, w &&& row.mask ≠ row.pattern) → decodeWord w = .error (.illegal w))

/-- R96, R97: the words that raise DecodeError are exactly the six classes of the table of R96, by their nibbles. -/
def Obligations.IllegalWordClasses : Prop :=
  ∀ w : Word,
    let op := w.toNat / 4096
    let n := w.toNat % 16
    let kk := w.toNat % 256
    (decodeWord w = .error (.illegal w) ∨ ∃ nnn, decodeWord w = .ok (.sys nnn)) ↔
      (op = 0 ∧ w.toNat ≠ 0x00E0 ∧ w.toNat ≠ 0x00EE) ∨ (op = 5 ∧ n ≠ 0) ∨ (op = 8 ∧ 8 ≤ n ∧ n ≠ 0xE) ∨
      (op = 9 ∧ n ≠ 0) ∨ (op = 0xE ∧ kk ≠ 0x9E ∧ kk ≠ 0xA1) ∨
      (op = 0xF ∧ kk ≠ 0x07 ∧ kk ≠ 0x0A ∧ kk ≠ 0x15 ∧ kk ≠ 0x18 ∧ kk ≠ 0x1E ∧ kk ≠ 0x29 ∧ kk ≠ 0x33 ∧ kk ≠ 0x55 ∧
        kk ≠ 0x65)

/-- R91, R95: words written out from the opcode map decode to the instruction they stand for, at least one for each of
the sixteen families (top nibbles), and a word of family 5 that matches no row is rejected. -/
def Obligations.SampleWordsDecode : Prop :=
  decodeWord 0x0123 = .ok (.sys 0x123) ∧ decodeWord 0x00E0 = .ok .cls ∧ decodeWord 0x00EE = .ok .ret ∧
  decodeWord 0x1ABC = .ok (.jp 0xABC) ∧ decodeWord 0x2FFF = .ok (.call 0xFFF) ∧
  decodeWord 0x3A2B = .ok (.seByte 0xA 0x2B) ∧ decodeWord 0x4FFF = .ok (.sneByte 0xF 0xFF) ∧
  decodeWord 0x5AB0 = .ok (.seReg 0xA 0xB) ∧ decodeWord 0x5AB1 = .error (.illegal 0x5AB1) ∧
  decodeWord 0x6F00 = .ok (.ldByte 0xF 0x00) ∧ decodeWord 0x7F01 = .ok (.addByte 0xF 0x01) ∧
  decodeWord 0x8AB7 = .ok (.subn 0xA 0xB) ∧ decodeWord 0x9AB0 = .ok (.sneReg 0xA 0xB) ∧
  decodeWord 0xA2F0 = .ok (.ldI 0x2F0) ∧ decodeWord 0xBFFF = .ok (.jpV0 0xFFF) ∧
  decodeWord 0xC30F = .ok (.rnd 3 0x0F) ∧ decodeWord 0xD125 = .ok (.drw 1 2 5) ∧
  decodeWord 0xEFA1 = .ok (.sknp 0xF) ∧ decodeWord 0xF165 = .ok (.loadRegs 1)

/-! ### The cycle (spec/40_cycle_and_flow.md) -/

/-- R120: when the bytes at PC decode to `i`, a step is exec of `i`, then the tick unless a fault was raised; a stop of
exec is a stop of the step. With ADDR_OOR_POLICY = fault the fetch itself needs PC + 1 in range (R65). -/
def Obligations.StepRunsDecodedInstruction : Prop :=
  ∀ (s : State) (i : Instr) (rest : List Byte), s.status = .running →
    (s.cfg.addrOorPolicy = .wrap ∨ s.pc.toNat + 1 ≤ 0x0FFF) →
    decode [s.readByte s.pc.toNat, s.readByte (s.pc.toNat + 1)] = .ok (i, rest) →
    (∀ t, exec i s = .next t → step s = .next (if t.status = .running then t.tick else t)) ∧
    (∀ r, exec i s = .fault r → step s = .fault r) ∧
    (∀ r, exec i s = .refused r → step s = .refused r)

/-- R96, R241: a word that is no instruction makes the step raise DecodeError with the raw opcode, the high byte being
the one at PC; nothing but `status` changes, and the timers do not tick. That the fault is recorded in `status` is the
spec's decision D17 (R248), and that the step answers a next state then is log entry 3. -/
def Obligations.IllegalWordRaisesDecodeError : Prop :=
  ∀ (s : State) (w : Word), s.status = .running → (s.cfg.addrOorPolicy = .wrap ∨ s.pc.toNat + 1 ≤ 0x0FFF) →
    w.toNat = (s.readByte s.pc.toNat).toNat * 256 + (s.readByte (s.pc.toNat + 1)).toNat →
    decodeWord w = .error (.illegal w) → step s = .next { s with status := .fault (.decodeError w) }

/-- R35, R120, R248: `step` is admitted only in status Running; in any other it is refused. -/
def Obligations.StepRefusedUnlessRunning : Prop :=
  ∀ s : State, s.status ≠ .running → step s = .refused (.notRunning s.status)

/-- R65, R7: with ADDR_OOR_POLICY = fault a fetch, and each data access, whose largest address sum is above 0x0FFF
stops with addressOutOfRange (log entry 7). -/
def Obligations.AddressPolicyFaults : Prop :=
  ∀ (s : State) (x y : Reg) (n : Fin 16), s.cfg.addrOorPolicy = .fault →
    (s.status = .running → 0x0FFF < s.pc.toNat + 1 → step s = .fault (.addressOutOfRange (s.pc.toNat + 1))) ∧
    (0x0FFF < s.i.toNat + 2 → exec (.ldB x) s = .fault (.addressOutOfRange (s.i.toNat + 2))) ∧
    (0x0FFF < s.i.toNat + x.val → exec (.storeRegs x) s = .fault (.addressOutOfRange (s.i.toNat + x.val))) ∧
    (0x0FFF < s.i.toNat + x.val → exec (.loadRegs x) s = .fault (.addressOutOfRange (s.i.toNat + x.val))) ∧
    (0 < n.val → 0x0FFF < s.i.toNat + (n.val - 1) →
      exec (.drw x y n) s = .fault (.addressOutOfRange (s.i.toNat + (n.val - 1))))

/-- R121: an instruction that answers a next state leaves PC at +2, at +4 (skips only), at a target set directly (JP,
CALL, JP V0, RET), or where it was: LD Vx,K with no key pressed, or a fault raised. -/
def Obligations.PcAdvance : Prop :=
  ∀ (i : Instr) (s t : State), exec i s = .next t →
    t.pc = s.pc + 2 ∨
    (t.pc = s.pc + 4 ∧ ((∃ x kk, i = .seByte x kk ∨ i = .sneByte x kk) ∨ (∃ x y, i = .seReg x y ∨ i = .sneReg x y) ∨
      ∃ x, i = .skp x ∨ i = .sknp x)) ∨
    (∃ nnn, (i = .jp nnn ∨ i = .call nnn) ∧ t.pc.toNat = nnn.toNat) ∨
    (∃ nnn, i = .jpV0 nnn ∧ t.pc.toNat = nnn.toNat + (s.getV 0).toNat) ∨
    (i = .ret ∧ ∃ h : s.sp.val - 1 < 16, t.pc = s.stack[s.sp.val - 1] + 2) ∨
    (t.pc = s.pc ∧ ((∃ x, i = .ldVxK x) ∧ (∀ k, s.keyDown k = false) ∨ ∃ e, t.status = .fault e))

/-! ### Control transfer (spec/40_cycle_and_flow.md) -/

/-- R97, R123: SYS raises DecodeError with its own opcode 0nnn and changes nothing else; with SYS_POLICY = nop it only
advances PC. -/
def Obligations.SysRaisesDecodeError : Prop :=
  ∀ (nnn : Addr) (s : State),
    (s.cfg.sysPolicy = .fault →
      ∃ w : Word, w.toNat = nnn.toNat ∧ exec (.sys nnn) s = .next { s with status := .fault (.decodeError w) }) ∧
    (s.cfg.sysPolicy = .nop → exec (.sys nnn) s = .next { s with pc := s.pc + 2 })

/-- R124: RET pops the slot below SP and resumes two bytes after the address in it, the slot unchanged. -/
def Obligations.RetPopsCallStack : Prop :=
  ∀ (s : State) (k : Fin 16), s.sp.val = k.val + 1 →
    exec .ret s = .next { s with sp := ⟨k.val, Nat.lt_succ_of_lt k.isLt⟩, pc := s.stack[k.val] + 2 }

/-- R126: CALL saves its own address in the slot SP names, counts it, and jumps. -/
def Obligations.CallPushesItsAddress : Prop :=
  ∀ (nnn : Addr) (s : State) (k : Fin 16), s.sp.val = k.val →
    exec (.call nnn) s =
      .next { s with stack := s.stack.set k.val s.pc, sp := ⟨k.val + 1, Nat.succ_lt_succ k.isLt⟩,
                     pc := BitVec.ofNat 16 nnn.toNat }

/-- R122, R124, R126: a CALL and then, from the state it leaves, a RET resume two bytes after the CALL, with SP and
every live slot as before. -/
def Obligations.CallThenRetResumesAfterCall : Prop :=
  ∀ (nnn : Addr) (s t u : State), s.sp.val < 16 → exec (.call nnn) s = .next t → exec .ret t = .next u →
    u.pc = s.pc + 2 ∧ u.sp = s.sp ∧ (∀ k : Fin 16, k.val < s.sp.val → u.stack[k.val] = s.stack[k.val]) ∧
    u = { s with pc := u.pc, stack := u.stack }

/-- R242, R243, R120: CALL with all sixteen slots in use and RET with none raise their fault, and the step that runs
them changes nothing but `status`: no slot, SP, PC or timer. -/
def Obligations.StackFaults : Prop :=
  ∀ (s : State) (nnn : Addr),
    (s.sp.val = 16 → exec (.call nnn) s = .next { s with status := .fault (.stackOverflow s.pc) }) ∧
    (s.sp.val = 0 → exec .ret s = .next { s with status := .fault (.stackUnderflow s.pc) }) ∧
    (s.status = .running → (s.cfg.addrOorPolicy = .wrap ∨ s.pc.toNat + 1 ≤ 0x0FFF) →
      (s.sp.val = 16 → decodeWord s.opcodeAtPc = .ok (.call nnn) →
        step s = .next { s with status := .fault (.stackOverflow s.pc) }) ∧
      (s.sp.val = 0 → decodeWord s.opcodeAtPc = .ok .ret →
        step s = .next { s with status := .fault (.stackUnderflow s.pc) }))

/-- R125, R131: JP sets PC to nnn; JP V0 sets it to nnn plus V0, a sum that needs no reduction. -/
def Obligations.JumpsSetPc : Prop :=
  ∀ (nnn : Addr) (s : State),
    exec (.jp nnn) s = .next { s with pc := BitVec.ofNat 16 nnn.toNat } ∧
    exec (.jpV0 nnn) s = .next { s with pc := BitVec.ofNat 16 (nnn.toNat + (s.getV 0).toNat) } ∧
    nnn.toNat + (s.getV 0).toNat ≤ 0x10FE

/-- R127 to R130: each compare-and-skip advances PC by 4 exactly when its comparison holds and by 2 otherwise, and
changes nothing else. -/
def Obligations.SkipsCompare : Prop :=
  ∀ (x y : Reg) (kk : Byte) (s : State),
    exec (.seByte x kk) s = .next { s with pc := s.pc + (if s.getV x = kk then 4 else 2) } ∧
    exec (.sneByte x kk) s = .next { s with pc := s.pc + (if s.getV x ≠ kk then 4 else 2) } ∧
    exec (.seReg x y) s = .next { s with pc := s.pc + (if s.getV x = s.getV y then 4 else 2) } ∧
    exec (.sneReg x y) s = .next { s with pc := s.pc + (if s.getV x ≠ s.getV y then 4 else 2) }

/-! ### ALU (spec/41_alu.md) -/

/-- R151 to R153: the register loads write Vx, ADD Vx,byte writes the sum mod 256 to Vx, and PC advances; no flag is
written, so VF changes only as destination. -/
def Obligations.LoadsAndAddByte : Prop :=
  ∀ (x y : Reg) (kk : Byte) (s : State),
    exec (.ldByte x kk) s = .next { s with v := s.v.set x.val kk, pc := s.pc + 2 } ∧
    exec (.ldReg x y) s = .next { s with v := s.v.set x.val s.v[y.val], pc := s.pc + 2 } ∧
    ∃ r : Byte, r.toNat = (s.v[x.val].toNat + kk.toNat) % 256 ∧
      exec (.addByte x kk) s = .next { s with v := s.v.set x.val r, pc := s.pc + 2 }

/-- R154 to R156: OR, AND, XOR write the bitwise result to Vx, bit by bit, and no flag. -/
def Obligations.LogicBitwise : Prop :=
  ∀ (x y : Reg) (s : State), ∃ o a e : Byte,
    exec (.orReg x y) s = .next { s with v := s.v.set x.val o, pc := s.pc + 2 } ∧
    exec (.andReg x y) s = .next { s with v := s.v.set x.val a, pc := s.pc + 2 } ∧
    exec (.xorReg x y) s = .next { s with v := s.v.set x.val e, pc := s.pc + 2 } ∧
    ∀ k, k < 8 →
      o.getLsbD k = (s.v[x.val].getLsbD k || s.v[y.val].getLsbD k) ∧
      a.getLsbD k = (s.v[x.val].getLsbD k && s.v[y.val].getLsbD k) ∧
      e.getLsbD k = (s.v[x.val].getLsbD k ^^ s.v[y.val].getLsbD k)

/-- R150, R164: the common form of a flag-writing ALU instruction that turns the old register values into `result` and
`flag`: Vx takes the result, then VF the flag, PC advances, nothing else changes. -/
def WritesResultThenFlag (i : Instr) (x : Reg) (s : State) (result flag : Nat) : Prop :=
  ∃ r f : Byte, r.toNat = result ∧ f.toNat = flag ∧
    exec i s = .next { s with v := (s.v.set x.val r).set 15 f, pc := s.pc + 2 }

/-- R157 (carry law), R150: for all byte pairs, VF as source or destination included. With x = F this is the order the
spec takes, flag last (D7). -/
def Obligations.AddCarryLaw : Prop :=
  ∀ (x y : Reg) (s : State), (s.cfg.vfDestOrder = .flagLast ∨ x ≠ VF) →
    let a := s.v[x.val].toNat
    let b := s.v[y.val].toNat
    WritesResultThenFlag (.addReg x y) x s ((a + b) % 256) (if a + b > 255 then 1 else 0)

/-- R158 (borrow law), R150: SUB, for all byte pairs. -/
def Obligations.SubBorrowLaw : Prop :=
  ∀ (x y : Reg) (s : State), (s.cfg.vfDestOrder = .flagLast ∨ x ≠ VF) →
    let a := s.v[x.val].toNat
    let b := s.v[y.val].toNat
    WritesResultThenFlag (.subReg x y) x s (if a ≥ b then a - b else a + 256 - b) (if a ≥ b then 1 else 0)

/-- R160, R150: SUBN is the reverse subtraction, its flag the borrow law with the operands exchanged (the spec's own
decision D30). -/
def Obligations.SubnBorrowLaw : Prop :=
  ∀ (x y : Reg) (s : State), (s.cfg.vfDestOrder = .flagLast ∨ x ≠ VF) →
    let a := s.v[x.val].toNat
    let b := s.v[y.val].toNat
    WritesResultThenFlag (.subn x y) x s (if b ≥ a then b - a else b + 256 - a) (if b ≥ a then 1 else 0)

/-- R159, R161, R150: SHR and SHL shift Vx by one, y ignored, the bit shifted out going to VF. With SHIFT_SOURCE = Vy,
which the spec does not take (D6), the value shifted is Vy's. -/
def Obligations.ShiftLaw : Prop :=
  ∀ (x y : Reg) (s : State), (s.cfg.vfDestOrder = .flagLast ∨ x ≠ VF) →
    let a := s.v[x.val].toNat
    let b := s.v[y.val].toNat
    (s.cfg.shiftSource = .vx →
      WritesResultThenFlag (.shr x y) x s (a / 2) (a % 2) ∧
      WritesResultThenFlag (.shl x y) x s (2 * a % 256) (a / 128)) ∧
    (s.cfg.shiftSource = .vy →
      WritesResultThenFlag (.shr x y) x s (b / 2) (b % 2) ∧
      WritesResultThenFlag (.shl x y) x s (2 * b % 256) (b / 128))

/-- R150, R7: the other two values of VF_DEST_ORDER, on the form they are about, x = F. With flag_first the result is
what VF ends as; with refuse the form is turned away (log entry 7). -/
def Obligations.VfDestinationOrders : Prop :=
  ∀ (y : Reg) (s : State),
    (s.cfg.vfDestOrder = .flagFirst →
      let a := s.v[15].toNat
      let b := s.v[y.val].toNat
      let shifted := match s.cfg.shiftSource with | .vx => a | .vy => b
      ∃ add sub shr subn shl : Byte,
        add.toNat = (a + b) % 256 ∧ sub.toNat = (a + 256 - b) % 256 ∧ shr.toNat = shifted / 2 ∧
        subn.toNat = (b + 256 - a) % 256 ∧ shl.toNat = 2 * shifted % 256 ∧
        exec (.addReg VF y) s = .next { s with v := s.v.set 15 add, pc := s.pc + 2 } ∧
        exec (.subReg VF y) s = .next { s with v := s.v.set 15 sub, pc := s.pc + 2 } ∧
        exec (.shr VF y) s = .next { s with v := s.v.set 15 shr, pc := s.pc + 2 } ∧
        exec (.subn VF y) s = .next { s with v := s.v.set 15 subn, pc := s.pc + 2 } ∧
        exec (.shl VF y) s = .next { s with v := s.v.set 15 shl, pc := s.pc + 2 }) ∧
    (s.cfg.vfDestOrder = .refuse →
      exec (.addReg VF y) s = .refused .vfAsDestination ∧ exec (.subReg VF y) s = .refused .vfAsDestination ∧
      exec (.shr VF y) s = .refused .vfAsDestination ∧ exec (.subn VF y) s = .refused .vfAsDestination ∧
      exec (.shl VF y) s = .refused .vfAsDestination)

/-- R162, R260: RND draws exactly one byte, also when kk = 0: the one supplied at the port if there is one, else a free
value; Vx takes its AND with kk. The supplied queue and the draw counter are the model's (log entry 5). -/
def Obligations.RndDrawsOneByte : Prop :=
  ∀ (x : Reg) (kk : Byte) (s : State), ∃ r : Byte,
    (∀ b rest, s.rnd.supplied = b :: rest → r = b) ∧
    exec (.rnd x kk) s =
      .next { s with v := s.v.set x.val (r &&& kk), pc := s.pc + 2,
                     rnd := { supplied := s.rnd.supplied.tail, drawn := s.rnd.drawn + 1 } }

/-! ### Index register and memory (spec/42_index_memory.md, spec/20_memory.md) -/

/-- R180, R182: LD I,addr writes nnn, LD F,Vx writes five times the whole byte Vx. -/
def Obligations.IndexLoads : Prop :=
  ∀ (x : Reg) (nnn : Addr) (s : State), ∃ a g : Word,
    a.toNat = nnn.toNat ∧ g.toNat = s.v[x.val].toNat * 5 ∧
    exec (.ldI nnn) s = .next { s with i := a, pc := s.pc + 2 } ∧
    exec (.ldF x) s = .next { s with i := g, pc := s.pc + 2 }

/-- R181: ADD I,Vx keeps the sum mod 65536 in I (mod 4096 with I_STORE_MASK = 0x0FFF) and sets VF to whether the
unreduced sum exceeds 0x0FFF; with x = F the old VF is the operand. -/
def Obligations.AddIndexOverflowLaw : Prop :=
  ∀ (x : Reg) (s : State),
    let sum := s.i.toNat + s.v[x.val].toNat
    ∃ (a : Word) (f : Byte),
      a.toNat = (match s.cfg.iStoreMask with | .full => sum % 65536 | .low12 => sum % 4096) ∧
      f.toNat = (if sum > 0x0FFF then 1 else 0) ∧
      exec (.addI x) s = .next { s with i := a, v := s.v.set 15 f, pc := s.pc + 2 }

/-- R183: LD B,Vx stores the decimal digits of Vx at I, I+1, I+2, each address reduced mod 4096 on its own; every other
byte of memory and everything else but PC is unchanged. -/
def Obligations.BcdStoresDigits : Prop :=
  ∀ (x : Reg) (s : State), (s.cfg.addrOorPolicy = .wrap ∨ s.i.toNat + 2 ≤ 0x0FFF) →
    ∃ t, exec (.ldB x) s = .next t ∧
      (t.readByte ((s.i.toNat + 0) % 4096)).toNat = s.v[x.val].toNat / 100 ∧
      (t.readByte ((s.i.toNat + 1) % 4096)).toNat = s.v[x.val].toNat / 10 % 10 ∧
      (t.readByte ((s.i.toNat + 2) % 4096)).toNat = s.v[x.val].toNat % 10 ∧
      (∀ a, a < 4096 → (∀ k, k < 3 → a ≠ (s.i.toNat + k) % 4096) → t.readByte a = s.readByte a) ∧
      t = { s with mem := t.mem, pc := s.pc + 2 }

/-- R184: LD [I],Vx stores V0 to Vx inclusive at I to I+x, each address reduced mod 4096; I, the registers and every
other byte are unchanged. -/
def Obligations.BlockStore : Prop :=
  ∀ (x : Reg) (s : State), (s.cfg.addrOorPolicy = .wrap ∨ s.i.toNat + x.val ≤ 0x0FFF) →
    ∃ t, exec (.storeRegs x) s = .next t ∧
      (∀ k : Fin 16, k.val ≤ x.val → t.readByte ((s.i.toNat + k.val) % 4096) = s.v[k.val]) ∧
      (∀ a, a < 4096 → (∀ k, k ≤ x.val → a ≠ (s.i.toNat + k) % 4096) → t.readByte a = s.readByte a) ∧
      t = { s with mem := t.mem, pc := s.pc + 2 }

/-- R185: LD Vx,[I] loads V0 to Vx inclusive from I to I+x, each address reduced mod 4096; I, memory and the registers
above Vx are unchanged. -/
def Obligations.BlockLoad : Prop :=
  ∀ (x : Reg) (s : State), (s.cfg.addrOorPolicy = .wrap ∨ s.i.toNat + x.val ≤ 0x0FFF) →
    ∃ t, exec (.loadRegs x) s = .next t ∧
      (∀ k : Fin 16, t.v[k.val] = if k.val ≤ x.val then s.readByte ((s.i.toNat + k.val) % 4096) else s.v[k.val]) ∧
      t = { s with v := t.v, pc := s.pc + 2 }

/-- R184, R185: storing V0 to Vx and then, with other values in the registers and I unchanged, loading them back
restores V0 to Vx. -/
def Obligations.StoreThenLoadRestoresRegisters : Prop :=
  ∀ (x : Reg) (v : Vector Byte 16) (s t u : State), exec (.storeRegs x) s = .next t →
    exec (.loadRegs x) { t with v := v } = .next u → ∀ k : Fin 16, k.val ≤ x.val → u.v[k.val] = s.v[k.val]

/-- R65, R66: a read sees the last write to the same effective address and no other; addresses reduce mod 4096. -/
def Obligations.MemoryReadWrite : Prop :=
  ∀ (s : State) (a c : Nat) (b : Byte),
    (s.writeByte a b).readByte c = (if c % 4096 = a % 4096 then b else s.readByte c) ∧
    s.readByte c = s.readByte (c % 4096) ∧ s.writeByte a b = { s with mem := (s.writeByte a b).mem }

/-- R66, R75: a byte a block store leaves at PC + 2 or PC + 3 is what the next fetch sees. -/
def Obligations.StoreSeenByNextFetch : Prop :=
  ∀ (x : Reg) (s t : State), 0 < x.val → s.i = s.pc + 2 → exec (.storeRegs x) s = .next t →
    t.opcodeAtPc = wordOfBytes s.v[0] s.v[1]

/-! ### Display (spec/43_display.md) -/

/-- R200: CLS zeroes all 2048 cells, requests a redraw and advances PC; VF and everything else are unchanged. -/
def Obligations.ClsClears : Prop :=
  ∀ s : State, ∃ fb : Framebuffer, (∀ x y, x < 64 → y < 32 → fb.cell x y = 0) ∧
    exec .cls s = .next { s with fb := fb, redrawPending := true, pc := s.pc + 2 }

/-- R201: the sprite of a DRW with operands x, y, n in state s has a 1 bit whose target is the pixel (px, py): bit
7 - c of the byte at I + r, for the target (Vx + c, Vy + r). -/
def SpriteBitAt (s : State) (x y : Reg) (n : Fin 16) (px py : Nat) : Prop :=
  ∃ r c, r < n.val ∧ c < 8 ∧ px = s.v[x.val].toNat + c ∧ py = s.v[y.val].toNat + r ∧
    (s.readByte ((s.i.toNat + r) % 4096)).getLsbD (7 - c) = true

/-- R201: DRW toggles exactly the cells on the screen under a 1 bit, sets VF to whether one of them was lit, requests a
redraw, and changes nothing else but PC. -/
def Obligations.DrawXorsAndDetectsCollision : Prop :=
  ∀ (x y : Reg) (n : Fin 16) (s : State),
    (s.cfg.addrOorPolicy = .wrap ∨ n.val = 0 ∨ s.i.toNat + (n.val - 1) ≤ 0x0FFF) →
    ∃ t, exec (.drw x y n) s = .next t ∧
      (∀ px py, px < 64 → py < 32 →
        (SpriteBitAt s x y n px py → t.fb.cell px py = s.fb.cell px py ^^^ 1) ∧
        (¬ SpriteBitAt s x y n px py → t.fb.cell px py = s.fb.cell px py)) ∧
      ((∃ px py, px < 64 ∧ py < 32 ∧ SpriteBitAt s x y n px py ∧ s.fb.cell px py ≠ 0) → t.v[15] = 1) ∧
      (¬ (∃ px py, px < 64 ∧ py < 32 ∧ SpriteBitAt s x y n px py ∧ s.fb.cell px py ≠ 0) → t.v[15] = 0) ∧
      (s.cfg.drwRedraw = .always → t.redrawPending = true) ∧
      (s.cfg.drwRedraw = .onChange → (t.redrawPending = true ↔ s.redrawPending = true ∨
        ∃ px py, px < 64 ∧ py < 32 ∧ SpriteBitAt s x y n px py)) ∧
      t = { s with v := s.v.set 15 t.v[15], fb := t.fb, redrawPending := t.redrawPending, pc := s.pc + 2 }

/-- R203 (XOR self-inverse): a second identical DRW restores the framebuffer; on an empty background the first reports
no collision and the second reports one exactly when the sprite has a 1 bit on the screen. The premises x, y ≠ F keep
Vx and Vy the same. R203's general collision sentence needs the empty background (log entry 12). -/
def Obligations.DrawTwiceRestores : Prop :=
  ∀ (x y : Reg) (n : Fin 16) (s t u : State), x ≠ VF → y ≠ VF →
    exec (.drw x y n) s = .next t → exec (.drw x y n) t = .next u →
    u.fb = s.fb ∧
    ((∀ px py, s.fb.cell px py = 0) →
      t.v[15] = 0 ∧ (u.v[15] = 1 ↔ ∃ px py, px < 64 ∧ py < 32 ∧ SpriteBitAt s x y n px py))

/-! ### Keys and timers (spec/44_input_timers.md, spec/60_exceptions.md) -/

/-- R220, R221: SKP and SKNP skip on the level of the key named by the low four bits of Vx. The other values of
KEY_INDEX_MODE (R7, D10) differ on Vx above 15 only: not_pressed takes such a key as up, fault stops (log entry 7). -/
def Obligations.KeySkips : Prop :=
  ∀ (x : Reg) (s : State),
    let value := s.v[x.val].toNat
    ((s.cfg.keyIndexMode = .mask4 ∨ value ≤ 15) →
      exec (.skp x) s = .next { s with pc := s.pc + (if s.keyDown (value % 16) then 4 else 2) } ∧
      exec (.sknp x) s = .next { s with pc := s.pc + (if s.keyDown (value % 16) then 2 else 4) }) ∧
    (s.cfg.keyIndexMode = .notPressed → 15 < value →
      exec (.skp x) s = .next { s with pc := s.pc + 2 } ∧ exec (.sknp x) s = .next { s with pc := s.pc + 4 }) ∧
    (s.cfg.keyIndexMode = .fault → 15 < value →
      exec (.skp x) s = .fault (.keyIndexOutOfRange s.v[x.val]) ∧
      exec (.sknp x) s = .fault (.keyIndexOutOfRange s.v[x.val]))

/-- R222: with no key down LD Vx,K changes nothing; otherwise it stores a pressed key and advances: the lowest with
KEY_SCAN_WINNER = lowest, the highest with highest, some pressed key with any. A whole cycle
with no key down ticks the timers and changes nothing else (R120). The scan counter is the model's (log entry 6). -/
def Obligations.KeyWait : Prop :=
  ∀ (x : Reg) (s : State),
    ((∀ k, k < 16 → s.keyDown k = false) → exec (.ldVxK x) s = .next s) ∧
    (∀ j, s.keyDown j = true → ∃ k, k < 16 ∧ s.keyDown k = true ∧
      exec (.ldVxK x) s =
        .next { s with v := s.v.set x.val (BitVec.ofNat 8 k), pc := s.pc + 2, keyScans := s.keyScans + 1 } ∧
      (s.cfg.keyScanWinner = .lowest → ∀ l, s.keyDown l = true → k ≤ l) ∧
      (s.cfg.keyScanWinner = .highest → ∀ l, s.keyDown l = true → l ≤ k)) ∧
    (s.status = .running → (s.cfg.addrOorPolicy = .wrap ∨ s.pc.toNat + 1 ≤ 0x0FFF) →
      decodeWord s.opcodeAtPc = .ok (.ldVxK x) → (∀ k, s.keyDown k = false) → step s = .next s.tick)

/-- R223 to R225: the timer moves read and write the timers immediately, before the tick. -/
def Obligations.TimerMoves : Prop :=
  ∀ (x : Reg) (s : State),
    exec (.ldVxDt x) s = .next { s with v := s.v.set x.val s.dt, pc := s.pc + 2 } ∧
    exec (.ldDtVx x) s = .next { s with dt := s.v[x.val], pc := s.pc + 2 } ∧
    exec (.ldStVx x) s = .next { s with st := s.v[x.val], pc := s.pc + 2 }

/-- R223 to R225, R252: over a whole cycle LD Vx,DT reads DT before the tick, LD DT,Vx leaves Vx - 1 (floor 0), LD
ST,Vx leaves Vx - 1 and raises sound_pending exactly for Vx = 1. -/
def Obligations.TimerMoveCycles : Prop :=
  ∀ (x : Reg) (s : State), s.status = .running → (s.cfg.addrOorPolicy = .wrap ∨ s.pc.toNat + 1 ≤ 0x0FFF) →
    (decodeWord s.opcodeAtPc = .ok (.ldVxDt x) →
      ∃ t, step s = .next t ∧ t.v[x.val] = s.dt ∧ t.dt.toNat = s.dt.toNat - 1 ∧ t.pc = s.pc + 2) ∧
    (decodeWord s.opcodeAtPc = .ok (.ldDtVx x) →
      ∃ t, step s = .next t ∧ t.dt.toNat = s.v[x.val].toNat - 1 ∧ t.v = s.v ∧ t.pc = s.pc + 2) ∧
    (decodeWord s.opcodeAtPc = .ok (.ldStVx x) →
      ∃ t, step s = .next t ∧ t.st.toNat = s.v[x.val].toNat - 1 ∧
        (t.soundPending = true ↔ s.soundPending = true ∨ s.v[x.val].toNat = 1) ∧ t.v = s.v ∧ t.pc = s.pc + 2)

/-- R252: the tick lowers each timer by one, floor 0, raises sound_pending when the sound timer was 1, otherwise leaves
the flag, and changes nothing else. -/
def Obligations.TickLaw : Prop :=
  ∀ s : State,
    s.tick.dt.toNat = s.dt.toNat - 1 ∧ s.tick.st.toNat = s.st.toNat - 1 ∧
    (s.tick.soundPending = true ↔ s.soundPending = true ∨ s.st.toNat = 1) ∧
    s.tick = { s with dt := s.tick.dt, st := s.tick.st, soundPending := s.tick.soundPending }

/-- R225, R252, R253: over n ticks both timers fall by n, floor 0, and the trigger fires exactly when the count of a
nonzero sound timer is used up within them. -/
def Obligations.TimersAfterTicks : Prop :=
  ∀ (n : Nat) (s : State),
    (State.tick^[n] s).dt.toNat = s.dt.toNat - n ∧ (State.tick^[n] s).st.toNat = s.st.toNat - n ∧
    ((State.tick^[n] s).soundPending = true ↔ s.soundPending = true ∨ (0 < s.st.toNat ∧ s.st.toNat ≤ n))

/-! ### Frames -/

/-- Frame of memory: an instruction other than LD B,Vx and LD [I],Vx stores nothing, so every byte reads as before
(R69). -/
def Obligations.MemoryFrame : Prop :=
  ∀ (i : Instr) (s t : State), (∀ x, i ≠ .ldB x ∧ i ≠ .storeRegs x) → exec i s = .next t →
    ∀ a, t.readByte a = s.readByte a

/-- Frame of the storing instructions: outside the bytes at the addresses the meaning computes, effective (I + k) for
k < 3 (LD B,Vx) and k ≤ x (LD [I],Vx), every byte reads as before (R69, R187). -/
def Obligations.StoreFrame : Prop :=
  ∀ (x : Reg) (s t : State),
    (exec (.ldB x) s = .next t →
      ∀ a, (∀ k, k < 3 → effective a ≠ effective (s.atI k)) → t.readByte a = s.readByte a) ∧
    (exec (.storeRegs x) s = .next t →
      ∀ a, (∀ k, k ≤ x.val → effective a ≠ effective (s.atI k)) → t.readByte a = s.readByte a)

/-- Frame of the general registers (R22, R150 to R162, R181, R185, R201, R222, R223): an instruction writes its
destination, and VF where it writes the flag, and no other register. -/
def Obligations.RegisterFrame : Prop :=
  ∀ (i : Instr) (s t : State), exec i s = .next t → ∀ r, writesV i r = false → t.getV r = s.getV r

/-- Frame of the other state (R23 to R35, R63, R226): I is written by LD I, ADD I, LD F only, the stack by CALL and RET
only and slots by CALL only, DT by LD DT,Vx only, ST by LD ST,Vx only, the framebuffer and redraw_pending by CLS and
DRW only, the random source by RND only, the model's scan counter (log entry 6) by LD Vx,K only, `status` by a fault of SYS, CALL or RET only; keys, sound_pending and the
parameters by no instruction. -/
def Obligations.SpecialStateFrame : Prop :=
  ∀ (i : Instr) (s t : State), exec i s = .next t →
    t.cfg = s.cfg ∧ t.key = s.key ∧ t.soundPending = s.soundPending ∧
    ((∀ nnn, i ≠ .ldI nnn) → (∀ x, i ≠ .addI x ∧ i ≠ .ldF x) → t.i = s.i) ∧
    ((∀ nnn, i ≠ .call nnn) → t.stack = s.stack) ∧
    ((∀ nnn, i ≠ .call nnn) → i ≠ .ret → t.sp = s.sp) ∧
    ((∀ x, i ≠ .ldDtVx x) → t.dt = s.dt) ∧
    ((∀ x, i ≠ .ldStVx x) → t.st = s.st) ∧
    (i ≠ .cls → (∀ x y n, i ≠ .drw x y n) → t.fb = s.fb ∧ t.redrawPending = s.redrawPending) ∧
    ((∀ x kk, i ≠ .rnd x kk) → t.rnd = s.rnd) ∧
    ((∀ x, i ≠ .ldVxK x) → t.keyScans = s.keyScans) ∧
    ((∀ nnn, i ≠ .sys nnn ∧ i ≠ .call nnn) → i ≠ .ret → t.status = s.status) ∧
    (t.status = s.status ∨ ∃ e, t = { s with status := .fault e })

/-! ### Faults (spec/60_exceptions.md) -/

/-- R245, R247: with the parameters the spec takes, every step of a running machine answers a next state, and the only
faults are DecodeError on a word that is no instruction (SYS included), StackOverflow on CALL with SP = 16 and
StackUnderflow on RET with SP = 0. -/
def Obligations.OnlyThreeFaults : Prop :=
  ∀ s : State, s.cfg = Config.taken → s.status = .running → ∃ t, step s = .next t ∧
    (t.status = .running ∨
     (t.status = .fault (.decodeError s.opcodeAtPc) ∧
       (decodeWord s.opcodeAtPc = .error (.illegal s.opcodeAtPc) ∨ ∃ nnn, decodeWord s.opcodeAtPc = .ok (.sys nnn))) ∨
     (t.status = .fault (.stackOverflow s.pc) ∧ s.sp.val = 16 ∧ ∃ nnn, decodeWord s.opcodeAtPc = .ok (.call nnn)) ∨
     (t.status = .fault (.stackUnderflow s.pc) ∧ s.sp.val = 0 ∧ decodeWord s.opcodeAtPc = .ok .ret))

/-- R248: a step that raises a fault changes `status` and nothing else, and every later step is refused. -/
def Obligations.FaultsArePrecise : Prop :=
  ∀ (s t : State) (e : FatalError), step s = .next t → t.status = .fault e →
    t = { s with status := .fault e } ∧ step t = .refused (.notRunning (.fault e))

/-! ### Reset and the host (spec/70_reset_and_hazards.md, spec/60_exceptions.md) -/

/-- R290, R41, R61: a `load` of at most 3584 bytes, in any status, leaves font, program and zeros in memory, every
register, slot, timer, cell and flag 0, PC = 0x200 and status Running, and leaves KEY and the random source alone. -/
def Obligations.LoadResets : Prop :=
  ∀ (s : State) (bytes : List Byte), bytes.length ≤ 3584 →
    ∃ t, (Operation.load bytes).perform s = .next t ∧ (Operation.load bytes).reply s t = .ok ∧
      (∀ r : Reg, t.v[r.val] = 0) ∧ t.i = 0 ∧ t.pc = 0x0200 ∧ (∀ k : Fin 16, t.stack[k.val] = 0) ∧ t.sp = 0 ∧
      t.dt = 0 ∧ t.st = 0 ∧ (∀ x y, t.fb.cell x y = 0) ∧ t.redrawPending = false ∧ t.soundPending = false ∧
      t.status = .running ∧ t.key = s.key ∧ t.rnd = s.rnd ∧ t.keyScans = s.keyScans ∧ t.cfg = s.cfg ∧
      (∀ k : Fin 80, t.readByte k.val = s.cfg.font[k.val]) ∧
      (∀ k : Fin bytes.length, t.readByte (0x200 + k.val) = bytes[k.val]) ∧
      (∀ a, a < 4096 → 80 ≤ a → (a < 0x200 ∨ 0x200 + bytes.length ≤ a) → t.readByte a = 0)

/-- R291, R244: a `load` of more than 3584 bytes leaves the state a `load` of the empty program leaves, but for
`status`, which records LoadError with the length; the host is told, and `step` is refused. -/
def Obligations.LoadErrorLeavesCleanReset : Prop :=
  ∀ (s : State) (bytes : List Byte), 3584 < bytes.length →
    ∃ e t, (Operation.load []).perform s = .next e ∧ (Operation.load bytes).perform s = .next t ∧
      t = { e with status := .fault (.loadError bytes.length) } ∧
      (Operation.load bytes).reply s t = .error (.loadError bytes.length) ∧
      step t = .refused (.notRunning (.fault (.loadError bytes.length)))

/-- R41, R42, R290: `State.reset` is what loading the empty program leaves on a machine just constructed, but for the
random source, the scan counter and the parameters, which `load` does not touch. Placing no program at reset is the
model's choice (log entry 4). -/
def Obligations.ResetIsLoadOfEmptyProgram : Prop :=
  ∀ s : State, s.PowerOn →
    s.load [] = { State.reset with cfg := s.cfg, rnd := s.rnd, keyScans := s.keyScans }

/-- R257, R258: the host's key and acknowledge operations change exactly what they name, in any status, and a key index
above 15 is refused. -/
def Obligations.HostKeyAndFlagOperations : Prop :=
  ∀ (s : State) (k : Fin 16) (p : Bool) (big : Nat), 15 < big →
    (Operation.setKey k.val p).perform s = .next { s with key := s.key.set k.val p } ∧
    (Operation.setKey big p).perform s = .refused (.keyOutsideMatrix big) ∧
    Operation.ackRedraw.perform s = .next { s with redrawPending := false } ∧
    Operation.ackSound.perform s = .next { s with soundPending := false } ∧
    Operation.redrawPending.perform s = .next s ∧ Operation.redrawPending.reply s s = .flag s.redrawPending ∧
    Operation.soundPending.perform s = .next s ∧ Operation.soundPending.reply s s = .flag s.soundPending

/-- R256, R262: the snapshot is the 2048 cells in row-major order, reading it changes nothing, and it is refused before
the first load. -/
def Obligations.SnapshotIsRowMajor : Prop :=
  ∀ s : State,
    s.framebufferSnapshot.length = 2048 ∧
    (∀ x y, x < 64 → y < 32 → s.framebufferSnapshot[y * 64 + x]? = some (s.fb.cell x y)) ∧
    (s.status ≠ .unloaded → Operation.framebufferSnapshot.perform s = .next s ∧
      Operation.framebufferSnapshot.reply s s = .cells s.framebufferSnapshot) ∧
    (s.status = .unloaded → Operation.framebufferSnapshot.perform s = .refused .snapshotBeforeLoad)

/-! ### Invariants and whole-machine rules -/

/-- R39, R41: the state after reset meets the invariant. -/
def Obligations.ResetMeetsInvariant : Prop := State.reset.Inv

/-- R39: every step keeps the invariant. -/
def Obligations.StepKeepsInvariant : Prop :=
  ∀ s t : State, s.Inv → step s = .next t → t.Inv

/-- R39: a successful load of any program on any state establishes the invariant, and every operation of the host
(R262), `step` included, keeps it, from every state that meets it; so it holds in every reachable state. -/
def Obligations.ReachableStatesMeetInvariant : Prop :=
  (∀ (s : State) (bytes : List Byte), bytes.length ≤ 3584 → (s.load bytes).Inv) ∧
  (∀ (s t : State) (op : Operation), s.Inv → op.perform s = .next t → t.Inv) ∧
  (∀ s : State, Reachable s → s.Inv)

/-- R7, column "insensitive when": a step on which the parameters of `c` that differ from those of `s` have no say
ends, as far as the program can tell, in the same way under both. FONT is kept equal. -/
def Obligations.StepInsensitiveToParameters : Prop :=
  ∀ (s : State) (c : Config),
    (∀ i, decodeWord s.opcodeAtPc = .ok i → InsensitiveTo s i c) →
    c.font = s.cfg.font → (c.addrOorPolicy = s.cfg.addrOorPolicy ∨ s.pc.toNat + 1 ≤ 0x0FFF) →
    viewResult (step { s with cfg := c }) = viewResult (step s)

/-- A result with both output flags cleared in its next state. -/
def withoutFlags : Result → Result
  | .next s => .next { s with redrawPending := false, soundPending := false }
  | .fault r => .fault r
  | .refused r => .refused r

/-- R258: no instruction reads either flag, so a step does not depend on when the host acknowledges. -/
def Obligations.StepIgnoresFlags : Prop :=
  ∀ (s : State) (r p : Bool),
    withoutFlags (step { s with redrawPending := r, soundPending := p }) = withoutFlags (step s)

/-- R31, R63, R246: no step changes the key matrix, and it is read by SKP, SKNP and LD Vx,K only: on any other word a
step with other keys ends in the same state but for the keys. -/
def Obligations.OnlyKeyInstructionsReadKeys : Prop :=
  ∀ s t : State, step s = .next t →
    t.key = s.key ∧
    ((∀ x, decodeWord s.opcodeAtPc ≠ .ok (.skp x) ∧ decodeWord s.opcodeAtPc ≠ .ok (.sknp x) ∧
        decodeWord s.opcodeAtPc ≠ .ok (.ldVxK x)) →
      ∀ key : Vector Bool 16, step { s with key := key } = .next { t with key := key })

/-- R300: from an idle state every cycle completes and changes nothing but the two timers, which run down, and
sound_pending, which is raised if the sound timer runs out; after 255 cycles the state is a fixed point of `step`. -/
def Obligations.IdleRunsDownToFixedPoint : Prop :=
  ∀ (s : State) (n : Nat), s.Idle → (s.cfg.addrOorPolicy = .wrap ∨ s.pc.toNat + 1 ≤ 0x0FFF) →
    ∃ t, cycles n s = .next t ∧ t = { s with dt := t.dt, st := t.st, soundPending := t.soundPending } ∧
      t.dt.toNat = s.dt.toNat - n ∧ t.st.toNat = s.st.toNat - n ∧
      (t.soundPending = true ↔ s.soundPending = true ∨ (0 < s.st.toNat ∧ s.st.toNat ≤ n)) ∧
      (255 ≤ n → t.FixedPoint)
end

