-- ==== Sys2Proof/Laws/Decode.lean ====
section
/-! SUPPORT. The fields of a packed word, field by field (spec/30_encoding.md rules R91, R92), and bytes as words. -/

namespace Sys2Proof

/-! ### Fields as numbers -/

theorem opField_toNat (w : Word) : (opField w).toNat = w.toNat / 4096 := by
  have := w.isLt
  simp only [opField, BitVec.extractLsb'_toNat, Nat.shiftRight_eq_div_pow]
  omega

theorem xField_val (w : Word) : (xField w).val = w.toNat / 256 % 16 := by
  simp only [xField, BitVec.val_toFin, BitVec.extractLsb'_toNat, Nat.shiftRight_eq_div_pow]

theorem yField_val (w : Word) : (yField w).val = w.toNat / 16 % 16 := by
  simp only [yField, BitVec.val_toFin, BitVec.extractLsb'_toNat, Nat.shiftRight_eq_div_pow]

theorem nField_val (w : Word) : (nField w).val = w.toNat % 16 := by
  simp only [nField, BitVec.val_toFin, BitVec.extractLsb'_toNat, Nat.shiftRight_eq_div_pow, Nat.pow_zero, Nat.div_one]

theorem subField_toNat (w : Word) : (subField w).toNat = w.toNat % 16 := by
  simp only [subField, BitVec.extractLsb'_toNat, Nat.shiftRight_eq_div_pow, Nat.pow_zero, Nat.div_one]

theorem kkField_toNat (w : Word) : (kkField w).toNat = w.toNat % 256 := by
  simp only [kkField, BitVec.extractLsb'_toNat, Nat.shiftRight_eq_div_pow, Nat.pow_zero, Nat.div_one]

theorem nnnField_toNat (w : Word) : (nnnField w).toNat = w.toNat % 4096 := by
  simp only [nnnField, BitVec.extractLsb'_toNat, Nat.shiftRight_eq_div_pow, Nat.pow_zero, Nat.div_one]

theorem hiByte_toNat (w : Word) : (hiByte w).toNat = w.toNat / 256 := by
  have := w.isLt
  simp only [hiByte, BitVec.extractLsb'_toNat, Nat.shiftRight_eq_div_pow]
  omega

theorem loByte_toNat (w : Word) : (loByte w).toNat = w.toNat % 256 := by
  simp only [loByte, BitVec.extractLsb'_toNat, Nat.shiftRight_eq_div_pow, Nat.pow_zero, Nat.div_one]

/-! ### Words as numbers -/

/-- Concatenation of two bit vectors as numbers. -/
theorem append_toNat {m n : Nat} (a : BitVec m) (b : BitVec n) : (a ++ b).toNat = a.toNat * 2 ^ n + b.toNat := by
  rw [BitVec.toNat_append, Nat.shiftLeft_eq, ← Nat.shiftLeft_eq, Nat.shiftLeft_add_eq_or_of_lt b.isLt]

theorem wordOfBytes_toNat (hi lo : Byte) : (wordOfBytes hi lo).toNat = hi.toNat * 256 + lo.toNat :=
  append_toNat hi lo

theorem packA_toNat (op : BitVec 4) (nnn : Addr) : (packA op nnn).toNat = op.toNat * 4096 + nnn.toNat :=
  append_toNat op nnn

theorem packXK_toNat (op : BitVec 4) (x : Reg) (kk : Byte) :
    (packXK op x kk).toNat = op.toNat * 4096 + x.val * 256 + kk.toNat := by
  have sum (a b c : Nat) : (a * 2 ^ 4 + b) * 2 ^ 8 + c = a * 4096 + b * 256 + c := by omega
  rw [packXK, append_toNat, append_toNat]
  exact sum op.toNat x.val kk.toNat

theorem packXY_toNat (op : BitVec 4) (x y : Reg) (sub : BitVec 4) :
    (packXY op x y sub).toNat = op.toNat * 4096 + x.val * 256 + y.val * 16 + sub.toNat := by
  have sum (a b c d : Nat) :
      (a * 2 ^ 4 + b) * 2 ^ 8 + (c * 2 ^ 4 + d) = a * 4096 + b * 256 + c * 16 + d := by omega
  rw [packXY, append_toNat, append_toNat, append_toNat]
  exact sum op.toNat x.val y.val sub.toNat

/-! ### Fields of packed words -/

@[simp] theorem opField_packA (op : BitVec 4) (nnn : Addr) : opField (packA op nnn) = op := by
  apply BitVec.eq_of_toNat_eq
  have := nnn.isLt
  rw [opField_toNat, packA_toNat]
  omega

@[simp] theorem nnnField_packA (op : BitVec 4) (nnn : Addr) : nnnField (packA op nnn) = nnn := by
  apply BitVec.eq_of_toNat_eq
  have := nnn.isLt
  rw [nnnField_toNat, packA_toNat]
  omega

@[simp] theorem opField_packXK (op : BitVec 4) (x : Reg) (kk : Byte) : opField (packXK op x kk) = op := by
  apply BitVec.eq_of_toNat_eq
  have := x.isLt
  have := kk.isLt
  rw [opField_toNat, packXK_toNat]
  omega

@[simp] theorem xField_packXK (op : BitVec 4) (x : Reg) (kk : Byte) : xField (packXK op x kk) = x := by
  apply Fin.ext
  have := x.isLt
  have := kk.isLt
  rw [xField_val, packXK_toNat]
  omega

@[simp] theorem kkField_packXK (op : BitVec 4) (x : Reg) (kk : Byte) : kkField (packXK op x kk) = kk := by
  apply BitVec.eq_of_toNat_eq
  have := kk.isLt
  rw [kkField_toNat, packXK_toNat]
  omega

@[simp] theorem opField_packXY (op : BitVec 4) (x y : Reg) (sub : BitVec 4) : opField (packXY op x y sub) = op := by
  apply BitVec.eq_of_toNat_eq
  have := x.isLt
  have := y.isLt
  have := sub.isLt
  rw [opField_toNat, packXY_toNat]
  omega

@[simp] theorem xField_packXY (op : BitVec 4) (x y : Reg) (sub : BitVec 4) : xField (packXY op x y sub) = x := by
  apply Fin.ext
  have := x.isLt
  have := y.isLt
  have := sub.isLt
  rw [xField_val, packXY_toNat]
  omega

@[simp] theorem yField_packXY (op : BitVec 4) (x y : Reg) (sub : BitVec 4) : yField (packXY op x y sub) = y := by
  apply Fin.ext
  have := y.isLt
  have := sub.isLt
  rw [yField_val, packXY_toNat]
  omega

@[simp] theorem subField_packXY (op : BitVec 4) (x y : Reg) (sub : BitVec 4) : subField (packXY op x y sub) = sub := by
  apply BitVec.eq_of_toNat_eq
  have := sub.isLt
  rw [subField_toNat, packXY_toNat]
  omega

@[simp] theorem nField_packXY (op : BitVec 4) (x y : Reg) (n : Fin 16) :
    nField (packXY op x y (BitVec.ofFin n)) = n := by
  apply Fin.ext
  have := n.isLt
  have h : (BitVec.ofFin n : BitVec 4).toNat = n.val := rfl
  rw [nField_val, packXY_toNat, h]
  omega

/-! ### Bytes -/

@[simp] theorem wordOfBytes_hiByte_loByte (w : Word) : wordOfBytes (hiByte w) (loByte w) = w := by
  apply BitVec.eq_of_toNat_eq
  rw [wordOfBytes_toNat, hiByte_toNat, loByte_toNat]
  omega

end Sys2Proof
end

