-- ==== Sys2Proof/Laws/Display.lean ====
section
/-! SUPPORT. The sprite drawer, cell by cell: what `Framebuffer.draw` leaves in every cell of the screen and when it
reports a collision (spec/43_display.md rules R201, R202). -/

namespace Sys2Proof.Machine

theorem Framebuffer.cell_setCell (fb : Framebuffer) (px py x y : Nat) (b : Byte) :
    (fb.setCell px py b).cell x y = if px < 64 ∧ py < 32 ∧ x = px ∧ y = py then b else fb.cell x y := by
  unfold Framebuffer.setCell
  by_cases hp : px < 64 ∧ py < 32
  · by_cases hx : x < 64 ∧ y < 32
    · simp only [hp, Framebuffer.cell, hx, and_self, dite_true, Vector.getElem_set]
      by_cases hy : py = y
      · subst hy
        by_cases hxx : px = x
        · simp [hxx]
        · simp [hxx, show ¬ x = px from fun e => hxx e.symm]
      · simp [hy, show ¬ y = py from fun e => hy e.symm]
    · have hne : ¬ (x = px ∧ y = py) := fun h => hx (h.1 ▸ h.2 ▸ hp)
      simp [hp, Framebuffer.cell, hx, hne]
  · have hne : ¬ (px < 64 ∧ py < 32 ∧ x = px ∧ y = py) := fun h => hp ⟨h.1, h.2.1⟩
    simp [hp, hne]

@[simp] theorem Framebuffer.cell_blank (x y : Nat) : Framebuffer.blank.cell x y = 0 := by
  unfold Framebuffer.cell Framebuffer.blank
  split <;> simp

/-- One sprite bit, cell by cell. -/
theorem Drawing.pixel_cell (d : Drawing) (px py x y : Nat) (bit : Bool) :
    (d.pixel px py bit).1.cell x y =
      if bit = true ∧ px < 64 ∧ py < 32 ∧ x = px ∧ y = py then d.1.cell x y ^^^ 1 else d.1.cell x y := by
  unfold Drawing.pixel
  by_cases h : bit = true ∧ px < 64 ∧ py < 32
  · obtain ⟨h1, h2, h3⟩ := h
    simp only [h1, h2, h3, decide_true, Bool.and_self, if_true, Framebuffer.cell_setCell, true_and]
    split
    · rename_i e; rw [e.1, e.2]
    · rfl
  · have hf : (bit && decide (px < 64) && decide (py < 32)) = false := by
      simp only [Bool.and_eq_false_iff, decide_eq_false_iff_not]
      cases bit <;> simp_all
      omega
    have hn : ¬ (bit = true ∧ px < 64 ∧ py < 32 ∧ x = px ∧ y = py) := fun e => h ⟨e.1, e.2.1, e.2.2.1⟩
    rw [hf, if_neg hn]
    rfl

/-- One sprite bit, the collision. -/
theorem Drawing.pixel_hit (d : Drawing) (px py : Nat) (bit : Bool) :
    (d.pixel px py bit).2 = true ↔
      d.2 = true ∨ (bit = true ∧ px < 64 ∧ py < 32 ∧ d.1.cell px py ≠ 0) := by
  unfold Drawing.pixel
  by_cases h : bit = true ∧ px < 64 ∧ py < 32
  · obtain ⟨h1, h2, h3⟩ := h
    simp [h1, h2, h3]
  · have hf : (bit && decide (px < 64) && decide (py < 32)) = false := by
      simp only [Bool.and_eq_false_iff, decide_eq_false_iff_not]
      cases bit <;> simp_all
      omega
    rw [hf]
    simp only [Bool.false_eq_true, if_false]
    exact ⟨Or.inl, fun e => e.elim id fun e => absurd ⟨e.1, e.2.1, e.2.2.1⟩ h⟩

/-- The first `n` columns of a sprite row. -/
theorem Drawing.columns_spec (d : Drawing) (x0 py : Nat) (b : Byte) (n : Nat) (x y : Nat) :
    let e := (List.range n).foldl (fun d c => d.pixel (x0 + c) py (b.getLsbD (7 - c))) d
    (e.1.cell x y =
      if (x0 ≤ x ∧ x < x0 + n ∧ y = py ∧ b.getLsbD (7 - (x - x0)) = true) ∧ x < 64 ∧ y < 32
      then d.1.cell x y ^^^ 1 else d.1.cell x y) ∧
    (e.2 = true ↔ d.2 = true ∨
      ∃ c, c < n ∧ b.getLsbD (7 - c) = true ∧ x0 + c < 64 ∧ py < 32 ∧ d.1.cell (x0 + c) py ≠ 0) := by
  induction n generalizing x y with
  | zero => simp; omega
  | succ n ih =>
    simp only [List.range_succ, List.foldl_append, List.foldl_cons, List.foldl_nil] at ih ⊢
    constructor
    · rw [Drawing.pixel_cell, (ih x y).1]
      by_cases hx : x = x0 + n
      · subst hx
        have h1 : x0 + n - x0 = n := by omega
        have h2 : ¬ (x0 + n < x0 + n) := by omega
        simp only [h1, h2, false_and, and_false, if_false]
        by_cases hy : y = py
        · subst hy; simp
        · simp [hy]
      · simp only [hx, false_and, and_false, if_false]
        have : x < x0 + (n + 1) ↔ x < x0 + n := by omega
        simp only [this]
    · rw [Drawing.pixel_hit, (ih x y).2, (ih (x0 + n) py).1]
      have h2 : ¬ (x0 + n < x0 + n) := by omega
      simp only [h2, false_and, and_false, if_false]
      constructor
      · rintro ((h | ⟨c, hc, h⟩) | h)
        · exact Or.inl h
        · exact Or.inr ⟨c, by omega, h⟩
        · exact Or.inr ⟨n, by omega, h⟩
      · rintro (h | ⟨c, hc, h⟩)
        · exact Or.inl (Or.inl h)
        · by_cases hcn : c = n
          · subst hcn; exact Or.inr h
          · exact Or.inl (Or.inr ⟨c, by omega, h⟩)

theorem spriteBit_nil (x0 y0 x y : Nat) : spriteBit [] x0 y0 x y = false := by simp [spriteBit]

theorem spriteBit_cons (b : Byte) (bs : List Byte) (x0 y0 x y : Nat) :
    spriteBit (b :: bs) x0 y0 x y =
      if y = y0 then decide (x0 ≤ x ∧ x < x0 + 8) && b.getLsbD (7 - (x - x0)) else spriteBit bs x0 (y0 + 1) x y := by
  by_cases hy : y = y0
  · subst hy; simp [spriteBit]
  · by_cases hlt : y0 ≤ y
    · have h1 : y - y0 = (y - (y0 + 1)) + 1 := by omega
      have h2 : y0 + 1 ≤ y := by omega
      simp [spriteBit, hy, hlt, h1, h2]
    · have h2 : ¬ y0 + 1 ≤ y := by omega
      simp [spriteBit, hy, hlt, h2]

/-- The rows of a sprite, cell by cell, and the collision. -/
theorem Drawing.rows_spec (d : Drawing) (x0 y0 : Nat) (sprite : List Byte) :
    (∀ x y, x < 64 → y < 32 → (d.rows x0 y0 sprite).1.cell x y =
      if spriteBit sprite x0 y0 x y = true then d.1.cell x y ^^^ 1 else d.1.cell x y) ∧
    ((d.rows x0 y0 sprite).2 = true ↔ d.2 = true ∨
      ∃ x y, x < 64 ∧ y < 32 ∧ spriteBit sprite x0 y0 x y = true ∧ d.1.cell x y ≠ 0) := by
  induction sprite generalizing d y0 with
  | nil => simp [Drawing.rows, spriteBit_nil]
  | cons b bs ih =>
    have hrow := fun x y => Drawing.columns_spec d x0 y0 b 8 x y
    obtain ⟨ih1, ih2⟩ := ih (d.row x0 y0 b) (y0 + 1)
    have hlow : ∀ x, spriteBit bs x0 (y0 + 1) x y0 = false := by
      intro x; simp [spriteBit]
    have hcell : ∀ x y, x < 64 → y < 32 → (d.row x0 y0 b).1.cell x y =
        if y = y0 ∧ (x0 ≤ x ∧ x < x0 + 8) ∧ b.getLsbD (7 - (x - x0)) = true
        then d.1.cell x y ^^^ 1 else d.1.cell x y := by
      intro x y hx hy
      have := (hrow x y).1
      simp only [Drawing.row, this, hx, hy, and_self, and_true]
      congr 1
      apply propext
      tauto
    constructor
    · intro x y hx hy
      rw [Drawing.rows, ih1 x y hx hy, hcell x y hx hy, spriteBit_cons]
      by_cases hyy : y = y0
      · subst hyy
        simp [hlow]
      · simp [hyy]
    · rw [Drawing.rows, ih2]
      have hhit := (hrow 0 0).2
      simp only [Drawing.row] at hhit hcell ⊢
      rw [hhit]
      constructor
      · rintro ((h | ⟨c, hc, hb, hx, hy, hcel⟩) | ⟨x, y, hx, hy, hs, hcel⟩)
        · exact Or.inl h
        · refine Or.inr ⟨x0 + c, y0, hx, hy, ?_, hcel⟩
          rw [spriteBit_cons]
          simp [hb, hc]
        · have hyy : y ≠ y0 := by
            rintro rfl
            rw [hlow] at hs
            exact Bool.noConfusion hs
          refine Or.inr ⟨x, y, hx, hy, ?_, ?_⟩
          · rw [spriteBit_cons, if_neg hyy]; exact hs
          · rw [hcell x y hx hy, if_neg (fun e => hyy e.1)] at hcel
            exact hcel
      · rintro (h | ⟨x, y, hx, hy, hs, hcel⟩)
        · exact Or.inl (Or.inl h)
        · rw [spriteBit_cons] at hs
          by_cases hyy : y = y0
          · subst hyy
            simp only [if_true, Bool.and_eq_true, decide_eq_true_eq] at hs
            have hxx : x0 + (x - x0) = x := by omega
            refine Or.inl (Or.inr ⟨x - x0, by omega, hs.2, by omega, hy, ?_⟩)
            rw [hxx]; exact hcel
          · rw [if_neg hyy] at hs
            refine Or.inr ⟨x, y, hx, hy, hs, ?_⟩
            rw [hcell x y hx hy, if_neg (fun e => hyy e.1)]
            exact hcel

/-- `draw`, cell by cell: a 1 bit on the screen toggles its cell, nothing else changes (R201). -/
theorem Framebuffer.draw_cell (fb : Framebuffer) (x0 y0 : Nat) (sprite : List Byte) (x y : Nat) (hx : x < 64)
    (hy : y < 32) :
    (fb.draw x0 y0 sprite).1.cell x y =
      if spriteBit sprite x0 y0 x y = true then fb.cell x y ^^^ 1 else fb.cell x y :=
  (Drawing.rows_spec (fb, false) x0 y0 sprite).1 x y hx hy

/-- `draw` reports a collision exactly when a 1 bit meets a lit cell on the screen (R201, R202). -/
theorem Framebuffer.draw_hit (fb : Framebuffer) (x0 y0 : Nat) (sprite : List Byte) :
    (fb.draw x0 y0 sprite).2 = true ↔
      ∃ x y, x < 64 ∧ y < 32 ∧ spriteBit sprite x0 y0 x y = true ∧ fb.cell x y ≠ 0 := by
  have := (Drawing.rows_spec (fb, false) x0 y0 sprite).2
  simpa [Framebuffer.draw] using this

theorem Framebuffer.cell_outside (fb : Framebuffer) (x y : Nat) (h : ¬ (x < 64 ∧ y < 32)) : fb.cell x y = 0 := by
  simp [Framebuffer.cell, h]

/-- Two framebuffers with equal cells on the screen are equal. -/
theorem Framebuffer.ext_cell {a b : Framebuffer} (h : ∀ x y, x < 64 → y < 32 → a.cell x y = b.cell x y) : a = b := by
  apply Vector.ext
  intro y hy
  apply Vector.ext
  intro x hx
  have := h x y hx hy
  simpa [Framebuffer.cell, hx, hy] using this

end Sys2Proof.Machine
end

