-- ==== Sys2Proof/Laws/State.lean ====
section
/-! SUPPORT. What each shared update of the state does to each field: one lemma per field per update, so that later
proofs unfold no record update. -/

namespace Sys2Proof.Machine

/-! ### setV -/

@[simp] theorem State.setV_cfg (s : State) (x : Reg) (b : Byte) : (s.setV x b).cfg = s.cfg := rfl
@[simp] theorem State.setV_i (s : State) (x : Reg) (b : Byte) : (s.setV x b).i = s.i := rfl
@[simp] theorem State.setV_pc (s : State) (x : Reg) (b : Byte) : (s.setV x b).pc = s.pc := rfl
@[simp] theorem State.setV_stack (s : State) (x : Reg) (b : Byte) : (s.setV x b).stack = s.stack := rfl
@[simp] theorem State.setV_sp (s : State) (x : Reg) (b : Byte) : (s.setV x b).sp = s.sp := rfl
@[simp] theorem State.setV_dt (s : State) (x : Reg) (b : Byte) : (s.setV x b).dt = s.dt := rfl
@[simp] theorem State.setV_st (s : State) (x : Reg) (b : Byte) : (s.setV x b).st = s.st := rfl
@[simp] theorem State.setV_mem (s : State) (x : Reg) (b : Byte) : (s.setV x b).mem = s.mem := rfl
@[simp] theorem State.setV_fb (s : State) (x : Reg) (b : Byte) : (s.setV x b).fb = s.fb := rfl
@[simp] theorem State.setV_key (s : State) (x : Reg) (b : Byte) : (s.setV x b).key = s.key := rfl
@[simp] theorem State.setV_rnd (s : State) (x : Reg) (b : Byte) : (s.setV x b).rnd = s.rnd := rfl
@[simp] theorem State.setV_keyScans (s : State) (x : Reg) (b : Byte) : (s.setV x b).keyScans = s.keyScans := rfl
@[simp] theorem State.setV_redrawPending (s : State) (x : Reg) (b : Byte) : (s.setV x b).redrawPending = s.redrawPending := rfl
@[simp] theorem State.setV_soundPending (s : State) (x : Reg) (b : Byte) : (s.setV x b).soundPending = s.soundPending := rfl
@[simp] theorem State.setV_status (s : State) (x : Reg) (b : Byte) : (s.setV x b).status = s.status := rfl
@[simp] theorem State.setV_v (s : State) (x : Reg) (b : Byte) : (s.setV x b).v = s.v.set x.val b := rfl

/-! ### next -/

@[simp] theorem State.next_cfg (s : State) : (s.next).cfg = s.cfg := rfl
@[simp] theorem State.next_v (s : State) : (s.next).v = s.v := rfl
@[simp] theorem State.next_i (s : State) : (s.next).i = s.i := rfl
@[simp] theorem State.next_stack (s : State) : (s.next).stack = s.stack := rfl
@[simp] theorem State.next_sp (s : State) : (s.next).sp = s.sp := rfl
@[simp] theorem State.next_dt (s : State) : (s.next).dt = s.dt := rfl
@[simp] theorem State.next_st (s : State) : (s.next).st = s.st := rfl
@[simp] theorem State.next_mem (s : State) : (s.next).mem = s.mem := rfl
@[simp] theorem State.next_fb (s : State) : (s.next).fb = s.fb := rfl
@[simp] theorem State.next_key (s : State) : (s.next).key = s.key := rfl
@[simp] theorem State.next_rnd (s : State) : (s.next).rnd = s.rnd := rfl
@[simp] theorem State.next_keyScans (s : State) : (s.next).keyScans = s.keyScans := rfl
@[simp] theorem State.next_redrawPending (s : State) : (s.next).redrawPending = s.redrawPending := rfl
@[simp] theorem State.next_soundPending (s : State) : (s.next).soundPending = s.soundPending := rfl
@[simp] theorem State.next_status (s : State) : (s.next).status = s.status := rfl
@[simp] theorem State.next_pc (s : State) : s.next.pc = s.pc + 2 := rfl

/-! ### skip -/

@[simp] theorem State.skip_cfg (s : State) : (s.skip).cfg = s.cfg := rfl
@[simp] theorem State.skip_v (s : State) : (s.skip).v = s.v := rfl
@[simp] theorem State.skip_i (s : State) : (s.skip).i = s.i := rfl
@[simp] theorem State.skip_stack (s : State) : (s.skip).stack = s.stack := rfl
@[simp] theorem State.skip_sp (s : State) : (s.skip).sp = s.sp := rfl
@[simp] theorem State.skip_dt (s : State) : (s.skip).dt = s.dt := rfl
@[simp] theorem State.skip_st (s : State) : (s.skip).st = s.st := rfl
@[simp] theorem State.skip_mem (s : State) : (s.skip).mem = s.mem := rfl
@[simp] theorem State.skip_fb (s : State) : (s.skip).fb = s.fb := rfl
@[simp] theorem State.skip_key (s : State) : (s.skip).key = s.key := rfl
@[simp] theorem State.skip_rnd (s : State) : (s.skip).rnd = s.rnd := rfl
@[simp] theorem State.skip_keyScans (s : State) : (s.skip).keyScans = s.keyScans := rfl
@[simp] theorem State.skip_redrawPending (s : State) : (s.skip).redrawPending = s.redrawPending := rfl
@[simp] theorem State.skip_soundPending (s : State) : (s.skip).soundPending = s.soundPending := rfl
@[simp] theorem State.skip_status (s : State) : (s.skip).status = s.status := rfl
@[simp] theorem State.skip_pc (s : State) : s.skip.pc = s.pc + 4 := rfl

/-! ### skipIf -/

@[simp] theorem State.skipIf_cfg (s : State) (c : Bool) : (s.skipIf c).cfg = s.cfg := by cases c <;> rfl
@[simp] theorem State.skipIf_v (s : State) (c : Bool) : (s.skipIf c).v = s.v := by cases c <;> rfl
@[simp] theorem State.skipIf_i (s : State) (c : Bool) : (s.skipIf c).i = s.i := by cases c <;> rfl
@[simp] theorem State.skipIf_stack (s : State) (c : Bool) : (s.skipIf c).stack = s.stack := by cases c <;> rfl
@[simp] theorem State.skipIf_sp (s : State) (c : Bool) : (s.skipIf c).sp = s.sp := by cases c <;> rfl
@[simp] theorem State.skipIf_dt (s : State) (c : Bool) : (s.skipIf c).dt = s.dt := by cases c <;> rfl
@[simp] theorem State.skipIf_st (s : State) (c : Bool) : (s.skipIf c).st = s.st := by cases c <;> rfl
@[simp] theorem State.skipIf_mem (s : State) (c : Bool) : (s.skipIf c).mem = s.mem := by cases c <;> rfl
@[simp] theorem State.skipIf_fb (s : State) (c : Bool) : (s.skipIf c).fb = s.fb := by cases c <;> rfl
@[simp] theorem State.skipIf_key (s : State) (c : Bool) : (s.skipIf c).key = s.key := by cases c <;> rfl
@[simp] theorem State.skipIf_rnd (s : State) (c : Bool) : (s.skipIf c).rnd = s.rnd := by cases c <;> rfl
@[simp] theorem State.skipIf_keyScans (s : State) (c : Bool) : (s.skipIf c).keyScans = s.keyScans := by cases c <;> rfl
@[simp] theorem State.skipIf_redrawPending (s : State) (c : Bool) : (s.skipIf c).redrawPending = s.redrawPending := by cases c <;> rfl
@[simp] theorem State.skipIf_soundPending (s : State) (c : Bool) : (s.skipIf c).soundPending = s.soundPending := by cases c <;> rfl
@[simp] theorem State.skipIf_status (s : State) (c : Bool) : (s.skipIf c).status = s.status := by cases c <;> rfl
@[simp] theorem State.skipIf_pc (s : State) (c : Bool) : (s.skipIf c).pc = s.pc + (if c then 4 else 2) := by
  cases c <;> rfl

/-! ### writeByte -/

@[simp] theorem State.writeByte_cfg (s : State) (a : Nat) (b : Byte) : (s.writeByte a b).cfg = s.cfg := rfl
@[simp] theorem State.writeByte_v (s : State) (a : Nat) (b : Byte) : (s.writeByte a b).v = s.v := rfl
@[simp] theorem State.writeByte_i (s : State) (a : Nat) (b : Byte) : (s.writeByte a b).i = s.i := rfl
@[simp] theorem State.writeByte_pc (s : State) (a : Nat) (b : Byte) : (s.writeByte a b).pc = s.pc := rfl
@[simp] theorem State.writeByte_stack (s : State) (a : Nat) (b : Byte) : (s.writeByte a b).stack = s.stack := rfl
@[simp] theorem State.writeByte_sp (s : State) (a : Nat) (b : Byte) : (s.writeByte a b).sp = s.sp := rfl
@[simp] theorem State.writeByte_dt (s : State) (a : Nat) (b : Byte) : (s.writeByte a b).dt = s.dt := rfl
@[simp] theorem State.writeByte_st (s : State) (a : Nat) (b : Byte) : (s.writeByte a b).st = s.st := rfl
@[simp] theorem State.writeByte_fb (s : State) (a : Nat) (b : Byte) : (s.writeByte a b).fb = s.fb := rfl
@[simp] theorem State.writeByte_key (s : State) (a : Nat) (b : Byte) : (s.writeByte a b).key = s.key := rfl
@[simp] theorem State.writeByte_rnd (s : State) (a : Nat) (b : Byte) : (s.writeByte a b).rnd = s.rnd := rfl
@[simp] theorem State.writeByte_keyScans (s : State) (a : Nat) (b : Byte) : (s.writeByte a b).keyScans = s.keyScans := rfl
@[simp] theorem State.writeByte_redrawPending (s : State) (a : Nat) (b : Byte) : (s.writeByte a b).redrawPending = s.redrawPending := rfl
@[simp] theorem State.writeByte_soundPending (s : State) (a : Nat) (b : Byte) : (s.writeByte a b).soundPending = s.soundPending := rfl
@[simp] theorem State.writeByte_status (s : State) (a : Nat) (b : Byte) : (s.writeByte a b).status = s.status := rfl
@[simp] theorem State.writeByte_mem (s : State) (a : Nat) (b : Byte) :
    (s.writeByte a b).mem = s.mem.write (background s.cfg.font) (effective a) b := rfl

/-! ### raise -/

@[simp] theorem State.raise_cfg (s : State) (e : FatalError) : (s.raise e).cfg = s.cfg := rfl
@[simp] theorem State.raise_v (s : State) (e : FatalError) : (s.raise e).v = s.v := rfl
@[simp] theorem State.raise_i (s : State) (e : FatalError) : (s.raise e).i = s.i := rfl
@[simp] theorem State.raise_pc (s : State) (e : FatalError) : (s.raise e).pc = s.pc := rfl
@[simp] theorem State.raise_stack (s : State) (e : FatalError) : (s.raise e).stack = s.stack := rfl
@[simp] theorem State.raise_sp (s : State) (e : FatalError) : (s.raise e).sp = s.sp := rfl
@[simp] theorem State.raise_dt (s : State) (e : FatalError) : (s.raise e).dt = s.dt := rfl
@[simp] theorem State.raise_st (s : State) (e : FatalError) : (s.raise e).st = s.st := rfl
@[simp] theorem State.raise_mem (s : State) (e : FatalError) : (s.raise e).mem = s.mem := rfl
@[simp] theorem State.raise_fb (s : State) (e : FatalError) : (s.raise e).fb = s.fb := rfl
@[simp] theorem State.raise_key (s : State) (e : FatalError) : (s.raise e).key = s.key := rfl
@[simp] theorem State.raise_rnd (s : State) (e : FatalError) : (s.raise e).rnd = s.rnd := rfl
@[simp] theorem State.raise_keyScans (s : State) (e : FatalError) : (s.raise e).keyScans = s.keyScans := rfl
@[simp] theorem State.raise_redrawPending (s : State) (e : FatalError) : (s.raise e).redrawPending = s.redrawPending := rfl
@[simp] theorem State.raise_soundPending (s : State) (e : FatalError) : (s.raise e).soundPending = s.soundPending := rfl
@[simp] theorem State.raise_status (s : State) (e : FatalError) : (s.raise e).status = .fault e := rfl

/-! ### tick -/

@[simp] theorem State.tick_cfg (s : State) : (s.tick).cfg = s.cfg := rfl
@[simp] theorem State.tick_v (s : State) : (s.tick).v = s.v := rfl
@[simp] theorem State.tick_i (s : State) : (s.tick).i = s.i := rfl
@[simp] theorem State.tick_pc (s : State) : (s.tick).pc = s.pc := rfl
@[simp] theorem State.tick_stack (s : State) : (s.tick).stack = s.stack := rfl
@[simp] theorem State.tick_sp (s : State) : (s.tick).sp = s.sp := rfl
@[simp] theorem State.tick_mem (s : State) : (s.tick).mem = s.mem := rfl
@[simp] theorem State.tick_fb (s : State) : (s.tick).fb = s.fb := rfl
@[simp] theorem State.tick_key (s : State) : (s.tick).key = s.key := rfl
@[simp] theorem State.tick_rnd (s : State) : (s.tick).rnd = s.rnd := rfl
@[simp] theorem State.tick_keyScans (s : State) : (s.tick).keyScans = s.keyScans := rfl
@[simp] theorem State.tick_redrawPending (s : State) : (s.tick).redrawPending = s.redrawPending := rfl
@[simp] theorem State.tick_status (s : State) : (s.tick).status = s.status := rfl
@[simp] theorem State.tick_dt (s : State) : s.tick.dt = countdown s.dt := rfl
@[simp] theorem State.tick_st (s : State) : s.tick.st = countdown s.st := rfl
@[simp] theorem State.tick_soundPending (s : State) : s.tick.soundPending = (s.soundPending || s.trigger) := rfl

/-! ### drawSprite -/

@[simp] theorem State.drawSprite_cfg (s : State) (d : Drawing) : (s.drawSprite d).cfg = s.cfg := rfl
@[simp] theorem State.drawSprite_i (s : State) (d : Drawing) : (s.drawSprite d).i = s.i := rfl
@[simp] theorem State.drawSprite_pc (s : State) (d : Drawing) : (s.drawSprite d).pc = s.pc := rfl
@[simp] theorem State.drawSprite_stack (s : State) (d : Drawing) : (s.drawSprite d).stack = s.stack := rfl
@[simp] theorem State.drawSprite_sp (s : State) (d : Drawing) : (s.drawSprite d).sp = s.sp := rfl
@[simp] theorem State.drawSprite_dt (s : State) (d : Drawing) : (s.drawSprite d).dt = s.dt := rfl
@[simp] theorem State.drawSprite_st (s : State) (d : Drawing) : (s.drawSprite d).st = s.st := rfl
@[simp] theorem State.drawSprite_mem (s : State) (d : Drawing) : (s.drawSprite d).mem = s.mem := rfl
@[simp] theorem State.drawSprite_key (s : State) (d : Drawing) : (s.drawSprite d).key = s.key := rfl
@[simp] theorem State.drawSprite_rnd (s : State) (d : Drawing) : (s.drawSprite d).rnd = s.rnd := rfl
@[simp] theorem State.drawSprite_keyScans (s : State) (d : Drawing) : (s.drawSprite d).keyScans = s.keyScans := rfl
@[simp] theorem State.drawSprite_soundPending (s : State) (d : Drawing) : (s.drawSprite d).soundPending = s.soundPending := rfl
@[simp] theorem State.drawSprite_status (s : State) (d : Drawing) : (s.drawSprite d).status = s.status := rfl
@[simp] theorem State.drawSprite_fb (s : State) (d : Drawing) : (s.drawSprite d).fb = d.1 := rfl
@[simp] theorem State.drawSprite_v (s : State) (d : Drawing) :
    (s.drawSprite d).v = s.v.set 15 (flagByte d.2) := rfl
@[simp] theorem State.drawSprite_redrawPending (s : State) (d : Drawing) :
    (s.drawSprite d).redrawPending = s.redrawAfter d.1 := rfl

/-! ### pushJump -/

@[simp] theorem State.pushJump_cfg (s : State) (w : Word) : (s.pushJump w).cfg = s.cfg := by
  unfold State.pushJump; split <;> rfl
@[simp] theorem State.pushJump_v (s : State) (w : Word) : (s.pushJump w).v = s.v := by
  unfold State.pushJump; split <;> rfl
@[simp] theorem State.pushJump_i (s : State) (w : Word) : (s.pushJump w).i = s.i := by
  unfold State.pushJump; split <;> rfl
@[simp] theorem State.pushJump_dt (s : State) (w : Word) : (s.pushJump w).dt = s.dt := by
  unfold State.pushJump; split <;> rfl
@[simp] theorem State.pushJump_st (s : State) (w : Word) : (s.pushJump w).st = s.st := by
  unfold State.pushJump; split <;> rfl
@[simp] theorem State.pushJump_mem (s : State) (w : Word) : (s.pushJump w).mem = s.mem := by
  unfold State.pushJump; split <;> rfl
@[simp] theorem State.pushJump_fb (s : State) (w : Word) : (s.pushJump w).fb = s.fb := by
  unfold State.pushJump; split <;> rfl
@[simp] theorem State.pushJump_key (s : State) (w : Word) : (s.pushJump w).key = s.key := by
  unfold State.pushJump; split <;> rfl
@[simp] theorem State.pushJump_rnd (s : State) (w : Word) : (s.pushJump w).rnd = s.rnd := by
  unfold State.pushJump; split <;> rfl
@[simp] theorem State.pushJump_keyScans (s : State) (w : Word) : (s.pushJump w).keyScans = s.keyScans := by
  unfold State.pushJump; split <;> rfl
@[simp] theorem State.pushJump_redrawPending (s : State) (w : Word) : (s.pushJump w).redrawPending = s.redrawPending := by
  unfold State.pushJump; split <;> rfl
@[simp] theorem State.pushJump_soundPending (s : State) (w : Word) : (s.pushJump w).soundPending = s.soundPending := by
  unfold State.pushJump; split <;> rfl
theorem State.pushJump_of_lt (s : State) (w : Word) (h : s.sp.val < 16) :
    s.pushJump w =
      { s with stack := s.stack.set s.sp.val s.pc, sp := ⟨s.sp.val + 1, by omega⟩, pc := w } := by
  simp [State.pushJump, h]
theorem State.pushJump_full (s : State) (w : Word) (h : s.sp.val = 16) :
    s.pushJump w = s.raise (.stackOverflow s.pc) := by
  simp [State.pushJump, h]

/-! ### popReturn -/

@[simp] theorem State.popReturn_cfg (s : State) : (s.popReturn).cfg = s.cfg := by
  unfold State.popReturn; split <;> rfl
@[simp] theorem State.popReturn_v (s : State) : (s.popReturn).v = s.v := by
  unfold State.popReturn; split <;> rfl
@[simp] theorem State.popReturn_i (s : State) : (s.popReturn).i = s.i := by
  unfold State.popReturn; split <;> rfl
@[simp] theorem State.popReturn_stack (s : State) : (s.popReturn).stack = s.stack := by
  unfold State.popReturn; split <;> rfl
@[simp] theorem State.popReturn_dt (s : State) : (s.popReturn).dt = s.dt := by
  unfold State.popReturn; split <;> rfl
@[simp] theorem State.popReturn_st (s : State) : (s.popReturn).st = s.st := by
  unfold State.popReturn; split <;> rfl
@[simp] theorem State.popReturn_mem (s : State) : (s.popReturn).mem = s.mem := by
  unfold State.popReturn; split <;> rfl
@[simp] theorem State.popReturn_fb (s : State) : (s.popReturn).fb = s.fb := by
  unfold State.popReturn; split <;> rfl
@[simp] theorem State.popReturn_key (s : State) : (s.popReturn).key = s.key := by
  unfold State.popReturn; split <;> rfl
@[simp] theorem State.popReturn_rnd (s : State) : (s.popReturn).rnd = s.rnd := by
  unfold State.popReturn; split <;> rfl
@[simp] theorem State.popReturn_keyScans (s : State) : (s.popReturn).keyScans = s.keyScans := by
  unfold State.popReturn; split <;> rfl
@[simp] theorem State.popReturn_redrawPending (s : State) : (s.popReturn).redrawPending = s.redrawPending := by
  unfold State.popReturn; split <;> rfl
@[simp] theorem State.popReturn_soundPending (s : State) : (s.popReturn).soundPending = s.soundPending := by
  unfold State.popReturn; split <;> rfl
theorem State.popReturn_of_pos (s : State) (h : s.sp.val ≠ 0) :
    s.popReturn =
      { s with sp := ⟨s.sp.val - 1, by omega⟩, pc := s.stack[s.sp.val - 1]'(by omega) + 2 } := by
  simp [State.popReturn, h]
theorem State.popReturn_empty (s : State) (h : s.sp.val = 0) :
    s.popReturn = s.raise (.stackUnderflow s.pc) := by
  simp [State.popReturn, h]

/-! ### Blocks: the whole update is one field -/

theorem State.writeBytes_eq (s : State) (base : Nat) (bs : List Byte) :
    s.writeBytes base bs = { s with mem := (s.writeBytes base bs).mem } := by
  induction bs generalizing s base with
  | nil => rfl
  | cons b bs ih => simp only [State.writeBytes]; rw [ih]; rfl

theorem State.storeRegs_eq (s : State) (base n : Nat) :
    s.storeRegs base n = { s with mem := (s.storeRegs base n).mem } := by
  induction n with
  | zero => rfl
  | succ k ih => simp only [State.storeRegs]; split <;> rw [ih]; rfl

theorem State.loadRegs_eq (s : State) (base n : Nat) :
    s.loadRegs base n = { s with v := (s.loadRegs base n).v } := by
  induction n with
  | zero => rfl
  | succ k ih => simp only [State.loadRegs]; split <;> rw [ih]; rfl

/-! ### writeBytes -/

@[simp] theorem State.writeBytes_cfg (s : State) (a : Nat) (bs : List Byte) : (s.writeBytes a bs).cfg = s.cfg := by
  rw [State.writeBytes_eq]
@[simp] theorem State.writeBytes_v (s : State) (a : Nat) (bs : List Byte) : (s.writeBytes a bs).v = s.v := by
  rw [State.writeBytes_eq]
@[simp] theorem State.writeBytes_i (s : State) (a : Nat) (bs : List Byte) : (s.writeBytes a bs).i = s.i := by
  rw [State.writeBytes_eq]
@[simp] theorem State.writeBytes_pc (s : State) (a : Nat) (bs : List Byte) : (s.writeBytes a bs).pc = s.pc := by
  rw [State.writeBytes_eq]
@[simp] theorem State.writeBytes_stack (s : State) (a : Nat) (bs : List Byte) : (s.writeBytes a bs).stack = s.stack := by
  rw [State.writeBytes_eq]
@[simp] theorem State.writeBytes_sp (s : State) (a : Nat) (bs : List Byte) : (s.writeBytes a bs).sp = s.sp := by
  rw [State.writeBytes_eq]
@[simp] theorem State.writeBytes_dt (s : State) (a : Nat) (bs : List Byte) : (s.writeBytes a bs).dt = s.dt := by
  rw [State.writeBytes_eq]
@[simp] theorem State.writeBytes_st (s : State) (a : Nat) (bs : List Byte) : (s.writeBytes a bs).st = s.st := by
  rw [State.writeBytes_eq]
@[simp] theorem State.writeBytes_fb (s : State) (a : Nat) (bs : List Byte) : (s.writeBytes a bs).fb = s.fb := by
  rw [State.writeBytes_eq]
@[simp] theorem State.writeBytes_key (s : State) (a : Nat) (bs : List Byte) : (s.writeBytes a bs).key = s.key := by
  rw [State.writeBytes_eq]
@[simp] theorem State.writeBytes_rnd (s : State) (a : Nat) (bs : List Byte) : (s.writeBytes a bs).rnd = s.rnd := by
  rw [State.writeBytes_eq]
@[simp] theorem State.writeBytes_keyScans (s : State) (a : Nat) (bs : List Byte) : (s.writeBytes a bs).keyScans = s.keyScans := by
  rw [State.writeBytes_eq]
@[simp] theorem State.writeBytes_redrawPending (s : State) (a : Nat) (bs : List Byte) : (s.writeBytes a bs).redrawPending = s.redrawPending := by
  rw [State.writeBytes_eq]
@[simp] theorem State.writeBytes_soundPending (s : State) (a : Nat) (bs : List Byte) : (s.writeBytes a bs).soundPending = s.soundPending := by
  rw [State.writeBytes_eq]
@[simp] theorem State.writeBytes_status (s : State) (a : Nat) (bs : List Byte) : (s.writeBytes a bs).status = s.status := by
  rw [State.writeBytes_eq]

/-! ### storeRegs -/

@[simp] theorem State.storeRegs_cfg (s : State) (a n : Nat) : (s.storeRegs a n).cfg = s.cfg := by
  rw [State.storeRegs_eq]
@[simp] theorem State.storeRegs_v (s : State) (a n : Nat) : (s.storeRegs a n).v = s.v := by
  rw [State.storeRegs_eq]
@[simp] theorem State.storeRegs_i (s : State) (a n : Nat) : (s.storeRegs a n).i = s.i := by
  rw [State.storeRegs_eq]
@[simp] theorem State.storeRegs_pc (s : State) (a n : Nat) : (s.storeRegs a n).pc = s.pc := by
  rw [State.storeRegs_eq]
@[simp] theorem State.storeRegs_stack (s : State) (a n : Nat) : (s.storeRegs a n).stack = s.stack := by
  rw [State.storeRegs_eq]
@[simp] theorem State.storeRegs_sp (s : State) (a n : Nat) : (s.storeRegs a n).sp = s.sp := by
  rw [State.storeRegs_eq]
@[simp] theorem State.storeRegs_dt (s : State) (a n : Nat) : (s.storeRegs a n).dt = s.dt := by
  rw [State.storeRegs_eq]
@[simp] theorem State.storeRegs_st (s : State) (a n : Nat) : (s.storeRegs a n).st = s.st := by
  rw [State.storeRegs_eq]
@[simp] theorem State.storeRegs_fb (s : State) (a n : Nat) : (s.storeRegs a n).fb = s.fb := by
  rw [State.storeRegs_eq]
@[simp] theorem State.storeRegs_key (s : State) (a n : Nat) : (s.storeRegs a n).key = s.key := by
  rw [State.storeRegs_eq]
@[simp] theorem State.storeRegs_rnd (s : State) (a n : Nat) : (s.storeRegs a n).rnd = s.rnd := by
  rw [State.storeRegs_eq]
@[simp] theorem State.storeRegs_keyScans (s : State) (a n : Nat) : (s.storeRegs a n).keyScans = s.keyScans := by
  rw [State.storeRegs_eq]
@[simp] theorem State.storeRegs_redrawPending (s : State) (a n : Nat) : (s.storeRegs a n).redrawPending = s.redrawPending := by
  rw [State.storeRegs_eq]
@[simp] theorem State.storeRegs_soundPending (s : State) (a n : Nat) : (s.storeRegs a n).soundPending = s.soundPending := by
  rw [State.storeRegs_eq]
@[simp] theorem State.storeRegs_status (s : State) (a n : Nat) : (s.storeRegs a n).status = s.status := by
  rw [State.storeRegs_eq]

/-! ### loadRegs -/

@[simp] theorem State.loadRegs_cfg (s : State) (a n : Nat) : (s.loadRegs a n).cfg = s.cfg := by
  rw [State.loadRegs_eq]
@[simp] theorem State.loadRegs_i (s : State) (a n : Nat) : (s.loadRegs a n).i = s.i := by
  rw [State.loadRegs_eq]
@[simp] theorem State.loadRegs_pc (s : State) (a n : Nat) : (s.loadRegs a n).pc = s.pc := by
  rw [State.loadRegs_eq]
@[simp] theorem State.loadRegs_stack (s : State) (a n : Nat) : (s.loadRegs a n).stack = s.stack := by
  rw [State.loadRegs_eq]
@[simp] theorem State.loadRegs_sp (s : State) (a n : Nat) : (s.loadRegs a n).sp = s.sp := by
  rw [State.loadRegs_eq]
@[simp] theorem State.loadRegs_dt (s : State) (a n : Nat) : (s.loadRegs a n).dt = s.dt := by
  rw [State.loadRegs_eq]
@[simp] theorem State.loadRegs_st (s : State) (a n : Nat) : (s.loadRegs a n).st = s.st := by
  rw [State.loadRegs_eq]
@[simp] theorem State.loadRegs_mem (s : State) (a n : Nat) : (s.loadRegs a n).mem = s.mem := by
  rw [State.loadRegs_eq]
@[simp] theorem State.loadRegs_fb (s : State) (a n : Nat) : (s.loadRegs a n).fb = s.fb := by
  rw [State.loadRegs_eq]
@[simp] theorem State.loadRegs_key (s : State) (a n : Nat) : (s.loadRegs a n).key = s.key := by
  rw [State.loadRegs_eq]
@[simp] theorem State.loadRegs_rnd (s : State) (a n : Nat) : (s.loadRegs a n).rnd = s.rnd := by
  rw [State.loadRegs_eq]
@[simp] theorem State.loadRegs_keyScans (s : State) (a n : Nat) : (s.loadRegs a n).keyScans = s.keyScans := by
  rw [State.loadRegs_eq]
@[simp] theorem State.loadRegs_redrawPending (s : State) (a n : Nat) : (s.loadRegs a n).redrawPending = s.redrawPending := by
  rw [State.loadRegs_eq]
@[simp] theorem State.loadRegs_soundPending (s : State) (a n : Nat) : (s.loadRegs a n).soundPending = s.soundPending := by
  rw [State.loadRegs_eq]
@[simp] theorem State.loadRegs_status (s : State) (a n : Nat) : (s.loadRegs a n).status = s.status := by
  rw [State.loadRegs_eq]

/-! ### Registers read back -/

@[simp] theorem State.getV_setV (s : State) (x y : Reg) (b : Byte) :
    (s.setV x b).getV y = if y = x then b else s.getV y := by
  simp only [State.getV, State.setV_v, Vector.getElem_set]
  by_cases h : y = x
  · simp [h]
  · have : x.val ≠ y.val := fun e => h (Fin.ext e.symm)
    simp [h, this]

theorem State.getV_congr {s t : State} (h : t.v = s.v) (x : Reg) : t.getV x = s.getV x := by
  simp only [State.getV, h]

theorem State.readByte_congr {s t : State} (hm : t.mem = s.mem) (hc : t.cfg = s.cfg) (a : Nat) :
    t.readByte a = s.readByte a := by
  simp only [State.readByte, hm, hc]

end Sys2Proof.Machine
end

