-- ==== Sys2Proof/Laws/Memory.lean ====
section
/-! SUPPORT. Memory: a read after a write, and the canonical form kept by every memory operation. -/

namespace Sys2Proof.Machine

/-! ### The list of listed bytes -/

theorem Memory.find_insert (m : Memory) (a c : Nat) (b : Byte) (h : ∀ e ∈ m, e.1 ≠ a) :
    Memory.find c (Memory.insert a b m) = if c = a then some b else Memory.find c m := by
  induction m with
  | nil => rfl
  | cons e rest ih =>
    have hea : e.1 ≠ a := h e (by simp)
    have ih := ih fun e' he => h e' (by simp [he])
    simp only [Memory.insert]
    split
    · rfl
    · by_cases hce : c = e.1 <;> simp [Memory.find, ih, hce, hea]

theorem Memory.find_filter (m : Memory) (a c : Nat) :
    Memory.find c (m.filter (fun e => e.1 != a)) = if c = a then none else Memory.find c m := by
  induction m with
  | nil => simp [Memory.find]
  | cons e rest ih =>
    by_cases hea : e.1 = a
    · rw [List.filter_cons_of_neg (by simp [hea]), ih]
      by_cases hc : c = a <;> simp [Memory.find, hea, hc]
    · by_cases hce : c = e.1 <;> simp [Memory.find, ih, hce, hea]

/-- A read after a write: the written byte at its address, every other address as before. -/
theorem Memory.read_write (bg : Nat → Byte) (m : Memory) (a c : Nat) (b : Byte) :
    (m.write bg a b).read bg c = if c = a then b else m.read bg c := by
  have hf : ∀ e ∈ m.filter (fun e => e.1 != a), e.1 ≠ a := by simp
  by_cases hb : b = bg a
  · by_cases hc : c = a <;> simp [Memory.write, Memory.read, hb, Memory.find_filter, hc]
  · by_cases hc : c = a <;>
      simp [Memory.write, Memory.read, hb, Memory.find_insert _ _ _ _ hf, Memory.find_filter, hc]

theorem Memory.mem_insert (m : Memory) (a : Nat) (b : Byte) (e : Host.Cell) :
    e ∈ Memory.insert a b m ↔ e = (a, b) ∨ e ∈ m := by
  induction m with
  | nil => simp [Memory.insert]
  | cons c rest ih =>
    simp only [Memory.insert]
    split
    · simp
    · simp only [List.mem_cons, ih]; tauto

theorem Memory.insert_pairwise (m : Memory) (a : Nat) (b : Byte) (h : ∀ e ∈ m, e.1 ≠ a)
    (hp : (m.map Prod.fst).Pairwise (· < ·)) : ((Memory.insert a b m).map Prod.fst).Pairwise (· < ·) := by
  induction m with
  | nil => simp [Memory.insert]
  | cons c rest ih =>
    have hr : ∀ e ∈ rest, e.1 ≠ a := fun e he => h e (by simp [he])
    have hca : c.1 ≠ a := h c (by simp)
    simp only [List.map_cons, List.pairwise_cons, List.mem_map, forall_exists_index, and_imp] at hp
    simp only [Memory.insert]
    split
    · rename_i hlt
      simp only [List.map_cons, List.pairwise_cons, List.mem_cons, List.mem_map]
      refine ⟨?_, ?_, hp.2⟩
      · rintro k (rfl | ⟨e, he, rfl⟩)
        · exact hlt
        · exact Nat.lt_trans hlt (hp.1 _ e he rfl)
      · rintro k ⟨e, he, rfl⟩
        exact hp.1 _ e he rfl
    · rename_i hge
      simp only [List.map_cons, List.pairwise_cons, List.mem_map]
      refine ⟨?_, ih hr hp.2⟩
      rintro k ⟨e, he, rfl⟩
      rcases (Memory.mem_insert rest a b e).1 he with rfl | he'
      · show c.1 < a
        omega
      · exact hp.1 _ e he' rfl

/-- A write inside the address space keeps the canonical form. -/
theorem Memory.write_wf (bg : Nat → Byte) (m : Memory) (a : Nat) (b : Byte) (ha : a < 4096) (h : m.wf bg) :
    (m.write bg a b).wf bg := by
  obtain ⟨hp, hm⟩ := h
  have hp' : ((m.filter (fun e => e.1 != a)).map Prod.fst).Pairwise (· < ·) :=
    hp.sublist (List.filter_sublist.map _)
  have hm' : ∀ e ∈ m.filter (fun e => e.1 != a), e.1 < 4096 ∧ e.2 ≠ bg e.1 :=
    fun e he => hm e (List.mem_filter.1 he).1
  have hf : ∀ e ∈ m.filter (fun e => e.1 != a), e.1 ≠ a := by simp
  unfold Memory.write
  split
  · exact ⟨hp', hm'⟩
  · rename_i hb
    refine ⟨Memory.insert_pairwise _ _ _ hf hp', fun e he => ?_⟩
    rcases (Memory.mem_insert _ _ _ _).1 he with rfl | he'
    · exact ⟨ha, hb⟩
    · exact hm' e he'

theorem Memory.nil_wf (bg : Nat → Byte) : Memory.wf bg [] := by simp [Memory.wf]

/-! ### The state's accesses -/

theorem effective_lt (a : Nat) : effective a < 4096 := Nat.mod_lt _ (by decide)

@[simp] theorem effective_effective (a : Nat) : effective (effective a) = effective a := by
  simp [effective]

/-- `MemRead` after `MemWrite` (R65, R66). -/
theorem State.readByte_writeByte (s : State) (a c : Nat) (b : Byte) :
    (s.writeByte a b).readByte c = if effective c = effective a then b else s.readByte c := by
  simp only [State.readByte, State.writeByte_mem, State.writeByte_cfg, Memory.read_write]

theorem State.writeByte_wf (s : State) (a : Nat) (b : Byte) (h : s.mem.wf (background s.cfg.font)) :
    (s.writeByte a b).mem.wf (background s.cfg.font) :=
  Memory.write_wf _ _ _ _ (effective_lt a) h

theorem State.writeBytes_wf (s : State) (base : Nat) (bs : List Byte) (h : s.mem.wf (background s.cfg.font)) :
    (s.writeBytes base bs).mem.wf (background s.cfg.font) := by
  induction bs generalizing s base with
  | nil => exact h
  | cons b bs ih => exact ih (s.writeByte base b) (base + 1) (s.writeByte_wf base b h)

theorem State.storeRegs_wf (s : State) (base n : Nat) (h : s.mem.wf (background s.cfg.font)) :
    (s.storeRegs base n).mem.wf (background s.cfg.font) := by
  induction n with
  | zero => exact h
  | succ k ih =>
    simp only [State.storeRegs]
    split
    · have := State.writeByte_wf (s.storeRegs base k) (base + k) (s.getV ⟨k, by assumption⟩) (by simpa using ih)
      simpa using this
    · exact ih

/-- What a block write leaves at an address: the last byte written there, or what was there (R71, R186). -/
theorem State.readByte_writeBytes (s : State) (base : Nat) (bs : List Byte) (hlen : bs.length ≤ 4096) (c : Nat) :
    (∀ k, (hk : k < bs.length) → effective c = effective (base + k) →
      (s.writeBytes base bs).readByte c = bs[k]) ∧
    ((∀ k, k < bs.length → effective c ≠ effective (base + k)) →
      (s.writeBytes base bs).readByte c = s.readByte c) := by
  induction bs generalizing s base with
  | nil => simp [State.writeBytes]
  | cons b bs ih =>
    have hl : bs.length + 1 ≤ 4096 := by simpa using hlen
    obtain ⟨ih1, ih2⟩ := ih (s.writeByte base b) (base + 1) (by omega)
    refine ⟨fun k hk he => ?_, fun hn => ?_⟩
    · cases k with
      | zero =>
        have hne : ∀ j, j < bs.length → effective c ≠ effective (base + 1 + j) := by
          intro j hj
          simp only [effective] at he ⊢
          omega
        simp only [State.writeBytes, ih2 hne, State.readByte_writeByte]
        simp at he
        simp [he]
      | succ k =>
        simp only [List.length_cons, Nat.add_lt_add_iff_right] at hk
        simpa [State.writeBytes] using ih1 k hk (by rw [he]; congr 1; omega)
    · have h0 : effective c ≠ effective base := by simpa using hn 0 (by simp)
      have hne : ∀ j, j < bs.length → effective c ≠ effective (base + 1 + j) := by
        intro j hj
        have := hn (j + 1) (by simpa using hj)
        rwa [show base + 1 + j = base + (j + 1) by omega]
      simp [State.writeBytes, ih2 hne, State.readByte_writeByte, h0]

/-- What storing V0 to V(n-1) leaves at an address (R184). -/
theorem State.readByte_storeRegs (s : State) (base n : Nat) (hn : n ≤ 16) (c : Nat) :
    (∀ k, (hk : k < n) → effective c = effective (base + k) →
      (s.storeRegs base n).readByte c = s.getV ⟨k, by omega⟩) ∧
    ((∀ k, k < n → effective c ≠ effective (base + k)) →
      (s.storeRegs base n).readByte c = s.readByte c) := by
  induction n with
  | zero => simp [State.storeRegs]
  | succ m ih =>
    have hm : m < 16 := by omega
    obtain ⟨ih1, ih2⟩ := ih (by omega)
    simp only [State.storeRegs, hm, dite_true, State.readByte_writeByte]
    refine ⟨fun k hk he => ?_, fun hne => ?_⟩
    · by_cases hkm : k = m
      · subst hkm; simp [he]
      · have : effective c ≠ effective (base + m) := by
          simp only [effective] at he ⊢
          omega
        rw [if_neg this]
        exact ih1 k (by omega) he
    · rw [if_neg (hne m (by omega))]
      exact ih2 (fun k hk => hne k (by omega))

/-- What loading V0 to V(n-1) leaves in a register (R185). -/
theorem State.getV_loadRegs (s : State) (base n : Nat) (hn : n ≤ 16) (r : Reg) :
    (s.loadRegs base n).getV r = if r.val < n then s.readByte (base + r.val) else s.getV r := by
  induction n with
  | zero => simp [State.loadRegs]
  | succ m ih =>
    have hm : m < 16 := by omega
    simp only [State.loadRegs, hm, dite_true, State.getV_setV, ih (by omega)]
    by_cases hr : r.val = m
    · have : r = ⟨m, hm⟩ := Fin.ext hr
      simp [this]
    · have h1 : r ≠ ⟨m, hm⟩ := fun e => hr (by rw [e])
      simp only [h1, if_false]
      by_cases hlt : r.val < m
      · simp [hlt, show r.val < m + 1 by omega]
      · simp [hlt, show ¬ r.val < m + 1 by omega]

end Sys2Proof.Machine
end

