-- ==== Sys2Proof/Laws/Exec.lean ====
section
/-! SUPPORT. What each shared operation of the instruction meanings answers, said once: address and key policies,
flags as numbers, timers, the flagged write, the step. -/

namespace Sys2Proof.Machine

/-! ### Policies -/

/-- An access goes on under `wrap`, and under `fault` when its largest sum is in range (R65). -/
theorem State.withAddress_go (s : State) (n : Nat) (go : Result) (h : s.cfg.addrOorPolicy = .wrap ∨ n ≤ 0x0FFF) :
    s.withAddress n go = go := by
  unfold State.withAddress
  rcases h with h | h
  · simp [h]
  · have : ¬ 0x0FFF < n := by omega
    split <;> simp [this]

/-- Under `fault` an access whose largest sum is out of range stops (R65). -/
theorem State.withAddress_fault (s : State) (n : Nat) (go : Result) (h : s.cfg.addrOorPolicy = .fault)
    (hn : 0x0FFF < n) : s.withAddress n go = .fault (.addressOutOfRange n) := by
  unfold State.withAddress
  simp [h, hn]

/-- An access that answers a next state is the access itself. -/
theorem State.withAddress_next {s t : State} {n : Nat} {go : Result} (h : s.withAddress n go = .next t) :
    go = .next t := by
  unfold State.withAddress at h
  split at h
  · exact h
  · split at h
    · cases h
    · exact h

/-- The key a register value names: `KEY[value mod 16]` under `mask4`, and in every mode for a value up to 15 (R220). -/
theorem State.withKey_go (s : State) (value : Byte) (go : Bool → Result)
    (h : s.cfg.keyIndexMode = .mask4 ∨ value.toNat ≤ 15) :
    s.withKey value go = go (s.keyDown (value.toNat % 16)) := by
  have hm : value.toNat % 16 < 16 := Nat.mod_lt _ (by decide)
  unfold State.withKey State.keyDown
  rcases h with h | h
  · simp [h, hm]
  · have h1 : value.toNat < 16 := by omega
    split <;> simp [h1, Nat.mod_eq_of_lt h1]

/-- A key instruction that answers a next state took `go` with some level. -/
theorem State.withKey_next {s t : State} {value : Byte} {go : Bool → Result} (h : s.withKey value go = .next t) :
    ∃ down, go down = .next t := by
  unfold State.withKey at h
  split at h
  · exact ⟨_, h⟩
  · exact ⟨_, h⟩
  · split at h
    · exact ⟨_, h⟩
    · cases h

theorem State.mem_pressedKeys (s : State) (k : Reg) : k ∈ s.pressedKeys ↔ s.keyDown k.val = true := by
  simp [State.pressedKeys, State.keyDown]

/-- The scan takes one of the pressed keys (R222). -/
theorem State.scanWinner_mem (s : State) (k : Reg) (ks : List Reg) : s.scanWinner k ks ∈ k :: ks := by
  unfold State.scanWinner
  split
  · simp
  · exact List.getLast_mem _
  · exact List.getElem_mem _

theorem State.pressedKeys_sorted (s : State) : s.pressedKeys.Pairwise (· < ·) :=
  (List.pairwise_lt_finRange 16).sublist List.filter_sublist

/-! ### Flags and results as numbers -/

theorem addFlagged_toNat (a b : Byte) : (addFlagged a b).1.toNat = (a.toNat + b.toNat) % 256 := by
  simp [addFlagged]

theorem subFlagged_toNat (a b : Byte) : (subFlagged a b).1.toNat = (a.toNat + 256 - b.toNat) % 256 := by
  simp [subFlagged]

theorem shrFlagged_toNat (a : Byte) : (shrFlagged a).1.toNat = a.toNat / 2 := by
  have := a.isLt
  simp only [shrFlagged, BitVec.toNat_ofNat]
  omega

theorem shlFlagged_toNat (a : Byte) : (shlFlagged a).1.toNat = 2 * a.toNat % 256 := by
  simp [shlFlagged]

theorem flagByte_toNat (c : Bool) : (flagByte c).toNat = if c then 1 else 0 := by
  cases c <;> rfl

/-- Bit 0 of a byte as a number (R159). -/
theorem shrFlag_toNat (a : Byte) : (flagByte (shrFlagged a).2).toNat = a.toNat % 2 := by
  rw [flagByte_toNat]
  simp only [shrFlagged, BitVec.getLsbD, Nat.testBit_zero]
  rcases Nat.mod_two_eq_zero_or_one a.toNat with h | h <;> simp [h]

/-- Bit 7 of a byte as a number (R161). -/
theorem shlFlag_toNat (a : Byte) : (flagByte (shlFlagged a).2).toNat = a.toNat / 128 := by
  have := a.isLt
  rw [flagByte_toNat]
  simp only [shlFlagged, BitVec.getLsbD, Nat.testBit_eq_decide_div_mod_eq]
  by_cases h : a.toNat / 128 = 1
  · simp [h]
  · have : a.toNat / 128 = 0 := by omega
    simp [this]

/-- The flagged write: result, then flag, then `next`, when the flag is written last or the destination is not VF
(R150). -/
theorem State.writeFlagged_last (s : State) (x : Reg) (r : Flagged)
    (h : s.cfg.vfDestOrder = .flagLast ∨ x ≠ VF) :
    s.writeFlagged x r = .next { s with v := (s.v.set x.val r.1).set 15 (flagByte r.2), pc := s.pc + 2 } := by
  unfold State.writeFlagged
  rcases h with h | h
  · rw [h]; rfl
  · split
    · rfl
    · have hne : x.val ≠ 15 := fun e => h (Fin.ext e)
      simp only [State.setV, State.next]
      congr 2
      exact Vector.set_comm _ _ (fun e => hne e.symm)
    · rw [if_neg h]; rfl

/-- What a flagged write can answer with: registers and PC only. -/
theorem State.writeFlagged_next {s t : State} {x : Reg} {r : Flagged} (h : s.writeFlagged x r = .next t) :
    t = { s with v := t.v, pc := s.pc + 2 } ∧ (∀ y, y ≠ x → y ≠ VF → t.getV y = s.getV y) := by
  unfold State.writeFlagged at h
  split at h
  · cases h
    exact ⟨rfl, fun y h1 h2 => by simp [State.getV_congr (s := _) (State.next_v _), h1, h2]⟩
  · cases h
    exact ⟨rfl, fun y h1 h2 => by simp [State.getV_congr (s := _) (State.next_v _), h1, h2]⟩
  · split at h
    · cases h
    · cases h
      exact ⟨rfl, fun y h1 h2 => by simp [State.getV_congr (s := _) (State.next_v _), h1, h2]⟩

/-! ### Registers through `next` -/

@[simp] theorem State.getV_next (s : State) (x : Reg) : s.next.getV x = s.getV x := rfl

@[simp] theorem State.getV_writeByte (s : State) (a : Nat) (b : Byte) (x : Reg) :
    (s.writeByte a b).getV x = s.getV x := rfl

@[simp] theorem State.readByte_next (s : State) (a : Nat) : s.next.readByte a = s.readByte a := rfl

@[simp] theorem State.readByte_setV (s : State) (x : Reg) (b : Byte) (a : Nat) :
    (s.setV x b).readByte a = s.readByte a := rfl

@[simp] theorem State.readByte_tick (s : State) (a : Nat) : s.tick.readByte a = s.readByte a := rfl

/-! ### Timers -/

theorem countdown_toNat (t : Byte) : (countdown t).toNat = t.toNat - 1 := by
  unfold countdown
  split
  · rename_i h; simp [h]
  · rename_i h
    have h0 : t.toNat ≠ 0 := fun e => h (BitVec.eq_of_toNat_eq e)
    have := t.isLt
    have h1 : (1 : Byte).toNat = 1 := rfl
    rw [BitVec.toNat_sub, h1]
    omega

theorem State.trigger_iff (s : State) : s.trigger = true ↔ s.st.toNat = 1 := by
  simp only [State.trigger, beq_iff_eq]
  exact ⟨fun h => by rw [h]; rfl, fun h => BitVec.eq_of_toNat_eq h⟩

/-! ### The step -/

/-- A running machine's step runs the word at PC, given the fetch is in range (R120). -/
theorem step_running (s : State) (hs : s.status = .running)
    (ha : s.cfg.addrOorPolicy = .wrap ∨ s.pc.toNat + 1 ≤ 0x0FFF) : step s = runWord s s.opcodeAtPc := by
  unfold step
  rw [hs]
  exact State.withAddress_go _ _ _ ha

/-- Everything a step that answers a next state can have done (R120, R241). -/
theorem step_cases {s t : State} (h : step s = .next t) :
    s.status = .running ∧
    ((∃ i u, decodeWord s.opcodeAtPc = .ok i ∧ exec i s = .next u ∧ t = u.endCycle) ∨
     (∃ e, decodeWord s.opcodeAtPc = .error e ∧ t = s.raise (.decodeError s.opcodeAtPc))) := by
  unfold step at h
  split at h
  · rename_i hs
    refine ⟨hs, ?_⟩
    have h := State.withAddress_next h
    unfold runWord at h
    split at h
    · rename_i i hi
      cases he : exec i s with
      | next u =>
        rw [he] at h
        cases h
        exact Or.inl ⟨i, u, hi, he, rfl⟩
      | fault r => rw [he] at h; cases h
      | refused r => rw [he] at h; cases h
    · rename_i e hi
      cases h
      exact Or.inr ⟨e, hi, rfl⟩
  · cases h
  · cases h

@[simp] theorem State.tick_status' (s : State) : s.tick.status = s.status := rfl

/-- The end of a cycle keeps `status` (R248, R252). -/
@[simp] theorem State.endCycle_status (s : State) : s.endCycle.status = s.status := by
  unfold State.endCycle
  split <;> rfl

end Sys2Proof.Machine
end

