-- ==== Sys2Proof/Tests/Slice0.lean ====
section
/-! SUPPORT. The model's own tests: ill-formed terms, words written out from the opcode map, single steps whose results
are the vectors of spec/95_test_vectors.md (named by their ids there), and a witness for the hypotheses of every
statement. -/

namespace Sys2Proof.Tests

open Sys2Proof.Machine

/-! ### Ill-formed terms -/

theorem test_sys_0E0_ill_formed : (Instr.sys 0x0E0).wellFormed = false := by decide
theorem test_sys_0EE_ill_formed : (Instr.sys 0x0EE).wellFormed = false := by decide

/-! ### Decoding: words from the opcode map (R95) and the classification of spec/95_test_vectors.md part 2.1 -/

theorem test_decode_family_0 : decodeTableWord 16 0x00E0 = some .cls ∧ decodeTableWord 16 0x00EE = some .ret ∧
    decodeTableWord 16 0x0FFF = some (.sys 0xFFF) ∧ decodeTableWord 16 0x00E1 = some (.sys 0x0E1) := by decide
theorem test_decode_jumps : decodeTableWord 16 0x1000 = some (.jp 0x000) ∧
    decodeTableWord 16 0x2FFF = some (.call 0xFFF) ∧ decodeTableWord 16 0xBFFF = some (.jpV0 0xFFF) := by decide
theorem test_decode_skips : decodeTableWord 16 0x3A00 = some (.seByte 0xA 0x00) ∧
    decodeTableWord 16 0x4FFF = some (.sneByte 0xF 0xFF) ∧ decodeTableWord 16 0x5AB0 = some (.seReg 0xA 0xB) ∧
    decodeTableWord 16 0x9AB0 = some (.sneReg 0xA 0xB) := by decide
theorem test_decode_immediates : decodeTableWord 16 0x6F00 = some (.ldByte 0xF 0x00) ∧
    decodeTableWord 16 0x7F01 = some (.addByte 0xF 0x01) ∧ decodeTableWord 16 0xA2F0 = some (.ldI 0x2F0) ∧
    decodeTableWord 16 0xC3A5 = some (.rnd 3 0xA5) ∧ decodeTableWord 16 0xD12F = some (.drw 1 2 15) := by decide
theorem test_decode_family_8 : decodeTableWord 16 0x8AB0 = some (.ldReg 0xA 0xB) ∧
    decodeTableWord 16 0x8AB1 = some (.orReg 0xA 0xB) ∧ decodeTableWord 16 0x8AB2 = some (.andReg 0xA 0xB) ∧
    decodeTableWord 16 0x8AB3 = some (.xorReg 0xA 0xB) ∧ decodeTableWord 16 0x8AB4 = some (.addReg 0xA 0xB) ∧
    decodeTableWord 16 0x8AB5 = some (.subReg 0xA 0xB) ∧ decodeTableWord 16 0x8AB6 = some (.shr 0xA 0xB) ∧
    decodeTableWord 16 0x8AB7 = some (.subn 0xA 0xB) ∧ decodeTableWord 16 0x8ABE = some (.shl 0xA 0xB) := by decide
theorem test_decode_family_E : decodeTableWord 16 0xE09E = some (.skp 0) ∧
    decodeTableWord 16 0xEFA1 = some (.sknp 0xF) := by decide
theorem test_decode_family_F : decodeTableWord 16 0xF107 = some (.ldVxDt 1) ∧
    decodeTableWord 16 0xF20A = some (.ldVxK 2) ∧
    decodeTableWord 16 0xF315 = some (.ldDtVx 3) ∧ decodeTableWord 16 0xF418 = some (.ldStVx 4) ∧
    decodeTableWord 16 0xF51E = some (.addI 5) ∧ decodeTableWord 16 0xF629 = some (.ldF 6) ∧
    decodeTableWord 16 0xF733 = some (.ldB 7) ∧ decodeTableWord 16 0xF855 = some (.storeRegs 8) ∧
    decodeTableWord 16 0xFF65 = some (.loadRegs 0xF) := by decide
theorem test_decode_illegal : decodeTableWord 16 0x5AB1 = none ∧ decodeTableWord 16 0x8AB8 = none ∧
    decodeTableWord 16 0x8ABF = none ∧ decodeTableWord 16 0x9AB1 = none ∧ decodeTableWord 16 0xE1A0 = none ∧
    decodeTableWord 16 0xF030 = none ∧ decodeTableWord 16 0xF085 = none ∧
    decodeTableWord 16 0xFFFF = none := by decide

/-! ### Single steps -/

/-- The state after loading the two bytes of `w`. -/
def start (w : Word) : State := State.reset.load [hiByte w, loByte w]

/-- An empty program, PC elsewhere, and the two bytes of `w` there. -/
def startAt (pc w : Word) : State := ({ State.reset with pc := pc } : State).withFetchWord 16 w.toNat

/-- A state with some registers set. -/
def withRegs (rs : List (Reg × Byte)) (s : State) : State := rs.foldl (fun s r => s.setV r.1 r.2) s

/-- A framebuffer with these cells lit. -/
def lit (cells : List (Nat × Nat)) : Framebuffer :=
  cells.foldl (fun fb c => fb.setCell c.1 c.2 1) Framebuffer.blank

/-- A key matrix with these keys down. -/
def pressed (keys : List Reg) : Vector Bool 16 :=
  keys.foldl (fun m k => m.set k.val true) (Vector.replicate 16 false)

/-- One step answers a next state of which `p` holds. -/
def after (s : State) (p : State → Bool) : Bool :=
  match step s with
  | .next t => p t
  | .fault _ => false
  | .refused _ => false

/-- Vector T1. -/
theorem test_sys_raises :
    after (start 0x0123)
      (fun t => t.status == .fault (.decodeError 0x0123) && t.pc == 0x0200) = true := by decide

/-- Vector T2. -/
theorem test_sys_zero_raises :
    after (start 0x0000)
      (fun t => t.status == .fault (.decodeError 0x0000)) = true := by decide

/-- Vector T3. -/
theorem test_ret_resumes_after_call :
    after { startAt 0x0300 0x00EE with sp := 1, stack := (start 0).stack.set 0 0x0204 }
      (fun t => t.pc == 0x0206 && t.sp == 0 && t.stack[0] == 0x0204) = true := by decide

/-- Vector T4. -/
theorem test_ret_on_empty_stack :
    after (start 0x00EE)
      (fun t => t.status == .fault (.stackUnderflow 0x0200) && t.pc == 0x0200 && t.sp == 0) = true := by decide

/-- Vector T6. -/
theorem test_jp : after (start 0x1ABC) (fun t => t.pc == 0x0ABC) = true := by decide

/-- Vector T7. -/
theorem test_jp_to_itself_ticks :
    after { start 0x1200 with dt := 3, st := 2 }
      (fun t => t.pc == 0x0200 && t.dt == 2 && t.st == 1) = true := by decide

/-- Vector T8. -/
theorem test_call_saves_own_address :
    after (startAt 0x0204 0x2300)
      (fun t => t.pc == 0x0300 && t.sp == 1 && t.stack[0] == 0x0204) = true := by decide

/-- Vector T10. -/
theorem test_call_on_full_stack :
    after { start 0x2300 with sp := 16, dt := 5 }
      (fun t => t.status == .fault (.stackOverflow 0x0200) && t.pc == 0x0200 && t.sp == 16 &&
        t.dt == 5) = true := by decide

/-- Vector T11. -/
theorem test_se_byte_equal : after (withRegs [(3, 0x2A)] (start 0x332A)) (fun t => t.pc == 0x0204) = true := by decide

/-- Vector T12. -/
theorem test_se_byte_unequal :
    after (withRegs [(3, 0x2A)] (start 0x332B))
      (fun t => t.pc == 0x0202) = true := by decide

/-- Vector T13. -/
theorem test_sne_byte_equal :
    after (withRegs [(3, 0x2A)] (start 0x432A))
      (fun t => t.pc == 0x0202) = true := by decide

/-- Vector T14. -/
theorem test_sne_byte_unequal :
    after (withRegs [(3, 0x2A)] (start 0x432B))
      (fun t => t.pc == 0x0204) = true := by decide

/-- Vector T15. -/
theorem test_se_reg_equal :
    after (withRegs [(1, 7), (2, 7)] (start 0x5120))
      (fun t => t.pc == 0x0204) = true := by decide

/-- Vector T16. -/
theorem test_se_reg_unequal :
    after (withRegs [(1, 7), (2, 8)] (start 0x5120))
      (fun t => t.pc == 0x0202) = true := by decide

/-- Vector T18. -/
theorem test_sne_reg_unequal :
    after (withRegs [(1, 7), (2, 8)] (start 0x9120))
      (fun t => t.pc == 0x0204) = true := by decide

/-- Vector T19. -/
theorem test_sne_reg_equal :
    after (withRegs [(1, 7), (2, 7)] (start 0x9120))
      (fun t => t.pc == 0x0202) = true := by decide

/-- Vector T21. -/
theorem test_jp_v0 : after (withRegs [(0, 4)] (start 0xB300)) (fun t => t.pc == 0x0304) = true := by decide

/-- Vector T22. -/
theorem test_jp_v0_leaves_memory_range :
    after (withRegs [(0, 0xFF)] (start 0xBFFF))
      (fun t => t.pc == 0x10FE) = true := by decide

/-- Vector T24. -/
theorem test_ld_byte_at_top :
    after (startAt 0x0FFE 0x6A05)
      (fun t => t.getV 0xA == 0x05 && t.pc == 0x1000) = true := by decide

/-- Vector T26. -/
theorem test_fetch_wraps_to_font :
    after (({ State.reset with pc := 0x0FFF } : State).writeByte 0xFFF 0x6A)
      (fun t => t.getV 0xA == 0xF0 && t.pc == 0x1001) = true := by decide

/-- Vector A2. -/
theorem test_ld_byte_into_vf : after (start 0x6FAB) (fun t => t.getV VF == 0xAB && t.pc == 0x0202) = true := by decide

/-- Vector A4. -/
theorem test_add_byte_discards_carry :
    after (withRegs [(0, 0xFE)] (start 0x7005))
      (fun t => t.getV 0 == 0x03 && t.getV VF == 0) = true := by decide

/-- Vector A7. -/
theorem test_add_byte_into_vf :
    after (withRegs [(VF, 0xFF)] (start 0x7F01))
      (fun t => t.getV VF == 0x00) = true := by decide

/-- Vector A8. -/
theorem test_ld_reg :
    after (withRegs [(2, 0x37)] (start 0x8120))
      (fun t => t.getV 1 == 0x37 && t.getV 2 == 0x37) = true := by decide

/-- Vector A9. -/
theorem test_or :
    after (withRegs [(1, 0xF0), (2, 0x0F), (VF, 1)] (start 0x8121))
      (fun t => t.getV 1 == 0xFF && t.getV VF == 1) = true := by decide

/-- Vector A10. -/
theorem test_and :
    after (withRegs [(1, 0xF3), (2, 0x3F), (VF, 1)] (start 0x8122))
      (fun t => t.getV 1 == 0x33 && t.getV VF == 1) = true := by decide

/-- Vector A11. -/
theorem test_xor :
    after (withRegs [(1, 0xFF), (2, 0x0F), (VF, 1)] (start 0x8123))
      (fun t => t.getV 1 == 0xF0 && t.getV VF == 1) = true := by decide

/-- Vector A13. -/
theorem test_add_reg_carry :
    after (withRegs [(1, 0xC8), (2, 0x64)] (start 0x8124))
      (fun t => t.getV 1 == 0x2C && t.getV VF == 1) = true := by decide

/-- Vector A20. -/
theorem test_add_reg_flag_last :
    after (withRegs [(VF, 0xF0), (1, 0x20)] (start 0x8F14))
      (fun t => t.getV VF == 1 && t.getV 1 == 0x20) = true := by decide

/-- Vector A21. -/
theorem test_sub_borrow :
    after (withRegs [(1, 5), (2, 7)] (start 0x8125))
      (fun t => t.getV 1 == 0xFE && t.getV VF == 0) = true := by decide

/-- Vector A23. -/
theorem test_sub_equal :
    after (withRegs [(1, 7), (2, 7)] (start 0x8125))
      (fun t => t.getV 1 == 0x00 && t.getV VF == 1) = true := by decide

/-- Vector A30. -/
theorem test_shr_ignores_y :
    after (withRegs [(1, 4), (2, 7)] (start 0x8126))
      (fun t => t.getV 1 == 0x02 && t.getV VF == 0 && t.getV 2 == 0x07) = true := by decide

/-- Vector A29. -/
theorem test_shr_bit_out :
    after (withRegs [(1, 0xFF)] (start 0x8126))
      (fun t => t.getV 1 == 0x7F && t.getV VF == 1) = true := by decide

/-- Vector A32. -/
theorem test_subn_no_borrow :
    after (withRegs [(1, 5), (2, 7)] (start 0x8127))
      (fun t => t.getV 1 == 0x02 && t.getV VF == 1) = true := by decide

/-- Vector A33. -/
theorem test_subn_borrow :
    after (withRegs [(1, 7), (2, 5)] (start 0x8127))
      (fun t => t.getV 1 == 0xFE && t.getV VF == 0) = true := by decide

/-- Vector A35. -/
theorem test_shl_bit_out :
    after (withRegs [(1, 0x81)] (start 0x812E))
      (fun t => t.getV 1 == 0x02 && t.getV VF == 1) = true := by decide

/-- Vector A38. -/
theorem test_shl_ignores_y :
    after (withRegs [(1, 1), (2, 0x80)] (start 0x812E))
      (fun t => t.getV 1 == 0x02 && t.getV VF == 0 && t.getV 2 == 0x80) = true := by decide

/-- Vector A40. -/
theorem test_rnd_masks :
    after { start 0xC30F with rnd := { supplied := [0xA7], drawn := 0 } }
      (fun t => t.getV 3 == 0x07 && t.rnd.supplied == []) = true := by decide

/-- Vector A41. -/
theorem test_rnd_zero_mask_draws :
    after { start 0xC300 with rnd := { supplied := [0xFF], drawn := 0 } }
      (fun t => t.getV 3 == 0x00 && t.rnd.drawn == 1 && t.rnd.supplied == []) = true := by decide

/-- Vector M2. -/
theorem test_ld_i : after { start 0xAFFF with i := 0x1234 } (fun t => t.i == 0x0FFF) = true := by decide

/-- Vector M4. -/
theorem test_add_i_overflow :
    after (withRegs [(1, 5)] { start 0xF11E with i := 0x0FFE })
      (fun t => t.i == 0x1003 && t.getV VF == 1) = true := by decide

/-- Vector M9. -/
theorem test_add_i_vf_operand :
    after (withRegs [(VF, 7)] { start 0xFF1E with i := 0x0100 })
      (fun t => t.i == 0x0107 && t.getV VF == 0) = true := by decide

/-- Vector M13. -/
theorem test_ld_f : after (withRegs [(2, 0x0F)] (start 0xF229)) (fun t => t.i == 0x004B) = true := by decide

/-- Vector M15. -/
theorem test_ld_f_whole_byte :
    after (withRegs [(2, 0xFF)] (start 0xF229))
      (fun t => t.i == 0x04FB) = true := by decide

/-- Vector M16. -/
theorem test_bcd :
    after (withRegs [(1, 0xFE)] { start 0xF133 with i := 0x0300 })
      (fun t => t.readBytes 0x300 3 == [2, 5, 4]) = true := by decide

/-- Vector M20. -/
theorem test_bcd_wraps :
    after (withRegs [(1, 0x7B)] { start 0xF133 with i := 0x0FFE })
      (fun t => t.readByte 0xFFE == 1 && t.readByte 0xFFF == 2 && t.readByte 0x000 == 3) = true := by decide

/-- Vector M22. -/
theorem test_store_block :
    after (withRegs [(0, 1), (1, 2), (2, 3), (3, 4)] { start 0xF255 with i := 0x0400 })
      (fun t => t.readBytes 0x400 4 == [1, 2, 3, 0] && t.i == 0x0400) = true := by decide

/-- Vector M25. -/
theorem test_store_block_wraps :
    after (withRegs [(0, 0xAB), (1, 0xCD)] { start 0xF155 with i := 0x0FFF })
      (fun t => t.readByte 0xFFF == 0xAB && t.readByte 0x000 == 0xCD) = true := by decide

/-- Vector M26. -/
theorem test_load_block :
    after (withRegs [(3, 0x77)]
      (({ start 0xF265 with i := 0x0400 } : State).writeBytes 0x400 [0x0A, 0x0B, 0x0C, 0x0D]))
      (fun t => t.getV 0 == 0x0A && t.getV 1 == 0x0B && t.getV 2 == 0x0C && t.getV 3 == 0x77 &&
        t.i == 0x0400) = true := by decide

/-- Vector M29. -/
theorem test_load_block_wraps :
    after (({ start 0xF165 with i := 0x0FFF } : State).writeByte 0xFFF 0x5A)
      (fun t => t.getV 0 == 0x5A && t.getV 1 == 0xF0) = true := by decide

/-- Vector G1. -/
theorem test_cls :
    after (withRegs [(VF, 1)] { start 0x00E0 with fb := lit [(0, 0), (63, 31)] })
      (fun t => t.fb.cell 0 0 == 0 && t.fb.cell 63 31 == 0 && t.redrawPending && t.getV VF == 1) = true := by decide

/-- Vector G4. -/
theorem test_drw_clips :
    after (withRegs [(0, 62), (1, 30)] (start 0xD015))
      (fun t => t.fb.cell 62 30 == 1 && t.fb.cell 63 30 == 1 && t.fb.cell 62 31 == 1 && t.fb.cell 63 31 == 0 &&
        t.fb.cell 0 0 == 0 && t.getV VF == 0 && t.redrawPending) = true := by decide

/-- Vector G11. -/
theorem test_drw_collides :
    after (withRegs [(0, 2), (1, 3)]
      (({ start 0xD011 with i := 0x300, fb := lit [(4, 3), (5, 3), (20, 3)] } : State).writeByte 0x300 0x3C))
      (fun t => t.fb.cell 4 3 == 0 && t.fb.cell 5 3 == 0 && t.fb.cell 6 3 == 1 && t.fb.cell 7 3 == 1 &&
        t.fb.cell 3 3 == 0 && t.fb.cell 20 3 == 1 && t.getV VF == 1) = true := by decide

/-- Vector K4. -/
theorem test_skp_low_nibble :
    after (withRegs [(1, 0x15)] { start 0xE19E with key := pressed [5] })
      (fun t => t.pc == 0x0204) = true := by decide

/-- Vector K3. -/
theorem test_skp_up :
    after (withRegs [(1, 5)] { start 0xE19E with key := pressed [4, 6] })
      (fun t => t.pc == 0x0202) = true := by decide

/-- Vector K6. -/
theorem test_sknp_up : after (withRegs [(1, 5)] (start 0xE1A1)) (fun t => t.pc == 0x0204) = true := by decide

/-- Vector K8. -/
theorem test_sknp_low_nibble :
    after (withRegs [(1, 0x25)] { start 0xE1A1 with key := pressed [5] })
      (fun t => t.pc == 0x0202) = true := by decide

/-- Vector K9. -/
theorem test_ld_key_takes_lowest :
    after { startAt 0x0210 0xF50A with key := pressed [3, 9] }
      (fun t => t.getV 5 == 0x03 && t.pc == 0x0212) = true := by decide

/-- Vector K10. -/
theorem test_ld_key_waits :
    after (withRegs [(5, 0x77)] { startAt 0x0210 0xF50A with dt := 2, st := 1 })
      (fun t => t.getV 5 == 0x77 && t.pc == 0x0210 && t.dt == 1 && t.st == 0 && t.soundPending) = true := by decide

/-- Vector D1. -/
theorem test_ld_vx_dt :
    after { start 0xF307 with dt := 0x10 }
      (fun t => t.getV 3 == 0x10 && t.dt == 0x0F) = true := by decide

/-- Vector D5. -/
theorem test_ld_dt_vx :
    after (withRegs [(3, 0)] { start 0xF315 with dt := 0x09 })
      (fun t => t.dt == 0x00) = true := by decide

/-- Vector D7. -/
theorem test_ld_dt_vx_max : after (withRegs [(3, 0xFF)] (start 0xF315)) (fun t => t.dt == 0xFE) = true := by decide

/-- Vector D9. -/
theorem test_ld_st_vx_triggers :
    after (withRegs [(3, 1)] (start 0xF318))
      (fun t => t.st == 0x00 && t.soundPending) = true := by decide

/-- Vector D11. -/
theorem test_ld_st_vx_zero :
    after (withRegs [(3, 0)] { start 0xF318 with st := 0x01 })
      (fun t => t.st == 0x00 && !t.soundPending) = true := by decide

/-- Vector D16. -/
theorem test_illegal_word_no_tick :
    after { start 0x5001 with dt := 5, st := 1 }
      (fun t => t.status == .fault (.decodeError 0x5001) && t.dt == 5 && t.st == 1 &&
        t.pc == 0x0200) = true := by decide

/-! ### The host's operations -/

/-- Vector H1. -/
theorem test_step_while_unloaded : step { State.reset with status := .unloaded } =
    .refused (.notRunning .unloaded) := rfl

/-- Vector H2: a key survives the load. -/
theorem test_key_survives_load :
    after (withRegs [(3, 3)] (({ State.reset with key := pressed [3] } : State).load [0xE3, 0x9E]))
      (fun t => t.pc == 0x0204) = true := by decide

/-- Vector H3: a second step after a fault is refused. -/
theorem test_step_after_fault : after (start 0x5001)
    (fun t => match step t with
      | .refused r => r == .notRunning (.fault (.decodeError 0x5001))
      | .next _ => false
      | .fault _ => false) = true := by decide

/-- The table of S1, one byte loaded. -/
theorem test_load_one_byte : (State.reset.load [0xAB]).readBytes 0x1FF 3 = [0, 0xAB, 0] ∧
    (State.reset.load [0xAB]).readBytes 0x04E 3 = [0x80, 0x80, 0] := by decide

/-- The table of S1, row 3585. -/
theorem test_load_too_long (bytes : List Byte) (h : bytes.length = 3585) :
    (State.reset.load bytes).status = .fault (.loadError 3585) := by simp [State.load, State.raise, h]

/-- Vector H8. -/
theorem test_no_key_16 : State.reset.setKey 16 true = .refused (.keyOutsideMatrix 16) := rfl

/-- A fetch of a placed word runs it as the first instruction. -/
theorem test_fetch_word_runs : after (State.reset.withFetchWord 16 0x6A05) (fun t => t.getV 0xA == 0x05) = true := by
  decide

/-! ### Witnesses: states and operands that meet the hypotheses of a statement, each clause on its own -/

/-- Parameters that differ from the ones the spec takes in everything but FONT. -/
def otherConfig : Config :=
  { Config.taken with
    sysPolicy := .nop, shiftSource := .vy, vfDestOrder := .flagFirst, iStoreMask := .low12, addrOorPolicy := .fault,
    keyIndexMode := .fault, keyScanWinner := .any, drwRedraw := .onChange }

/-- A state built with other parameters. -/
def withConfig (c : Config) (s : State) : State := { s with cfg := c }

theorem witness_DecodeOfEncode : (Instr.sys 0xFFF).wellFormed = true ∧ (Instr.drw 15 0 15).wellFormed = true := by decide

theorem witness_EncodeOfDecode : decodeWord 0xFFFF ≠ .ok .cls ∧ decodeWord 0x8ABE = .ok (.shl 0xA 0xB) := by decide

theorem witness_OpcodeMapDecides_row : ∃ row ∈ opcodeRows 0xF065, (0xF065 : Word) &&& row.mask = row.pattern := by decide

theorem witness_OpcodeMapDecides_sys :
    (0x00EF : Word) &&& 0xF000 = 0x0000 ∧ (0x00EF : Word) ≠ 0x00E0 ∧ (0x00EF : Word) ≠ 0x00EE := by decide

theorem witness_OpcodeMapDecides_illegal :
    (0x800F : Word) &&& 0xF000 ≠ 0x0000 ∧ ∀ row ∈ opcodeRows 0x800F, (0x800F : Word) &&& row.mask ≠ row.pattern := by
  decide

/-- What the statements about one fetched word ask of a state. -/
def Fetches (s : State) (w : Word) : Prop :=
  s.status = .running ∧ (s.cfg.addrOorPolicy = .wrap ∨ s.pc.toNat + 1 ≤ 0x0FFF) ∧ s.opcodeAtPc = w

theorem start_eq (w : Word) : start w = State.reset.loaded [hiByte w, loByte w] := by simp [start, State.load]

theorem witness_fetch (w : Word) : Fetches (start w) w := by
  rw [start_eq]
  refine ⟨rfl, .inl rfl, ?_⟩
  simp [State.loaded, State.writeBytes, State.opcodeAtPc, State.readByte_writeByte, effective]

theorem witness_StepRunsDecodedInstruction_next :
    decode [(start 0x1200).readByte 0x200, (start 0x1200).readByte (0x200 + 1)] = .ok (.jp 0x200, []) ∧
      ∃ t, exec (.jp 0x200) (start 0x1200) = .next t := ⟨by decide, _, rfl⟩

/-- The largest PC whose fetch is in range under ADDR_OOR_POLICY = fault, and an instruction that stops. -/
theorem witness_StepRunsDecodedInstruction_fault :
    let s := withRegs [(1, 16)] (withConfig otherConfig (startAt 0x0FFE 0xE19E))
    s.status = .running ∧ s.pc.toNat + 1 ≤ 0x0FFF ∧
      decode [s.readByte s.pc.toNat, s.readByte (s.pc.toNat + 1)] = .ok (.skp 1, []) ∧
      exec (.skp 1) s = .fault (.keyIndexOutOfRange 16) := ⟨by decide, by decide, by decide, rfl⟩

theorem witness_StepRunsDecodedInstruction_refused :
    let s := withConfig { Config.taken with vfDestOrder := .refuse } (start 0x8F14)
    s.status = .running ∧ decode [s.readByte s.pc.toNat, s.readByte (s.pc.toNat + 1)] = .ok (.addReg 15 1, []) ∧
      exec (.addReg 15 1) s = .refused .vfAsDestination := ⟨by decide, by decide, rfl⟩

theorem witness_IllegalWordRaisesDecodeError :
    decodeWord 0x5001 = .error (.illegal 0x5001) ∧ (start 0x5001).status = .running ∧
      (0x5001 : Word).toNat = ((start 0x5001).readByte 0x200).toNat * 256 + ((start 0x5001).readByte 0x201).toNat := by
  decide

theorem witness_StepRefusedUnlessRunning : ({ State.reset with status := .unloaded } : State).status ≠ .running := by decide

theorem witness_AddressPolicyFaults :
    let s := withConfig otherConfig ({ State.reset with pc := 0x0FFF, i := 0x0FFE } : State)
    s.cfg.addrOorPolicy = .fault ∧ s.status = .running ∧ 0x0FFF < s.pc.toNat + 1 ∧ 0x0FFF < s.i.toNat + 2 ∧
      0x0FFF < s.i.toNat + (2 : Reg).val ∧ 0 < (3 : Fin 16).val ∧ 0x0FFF < s.i.toNat + ((3 : Fin 16).val - 1) := by decide

theorem witness_exec_next : (∃ t, exec .ret (startAt 0x300 0x00EE) = .next t) ∧
    (∃ t, exec (.ldVxK 0) State.reset = .next t) ∧ (∃ t, exec (.sys 0) State.reset = .next t) ∧
    (∃ t, exec (.skp 0) State.reset = .next t) ∧ ∃ t, exec (.jpV0 0xFFF) State.reset = .next t :=
  ⟨⟨_, rfl⟩, ⟨_, rfl⟩, ⟨_, rfl⟩, ⟨_, rfl⟩, _, rfl⟩

theorem witness_SysRaisesDecodeError :
    State.reset.cfg.sysPolicy = .fault ∧ (withConfig otherConfig State.reset).cfg.sysPolicy = .nop := by decide

theorem witness_stack_bounds :
    ({ State.reset with sp := 16 } : State).sp.val = (15 : Fin 16).val + 1 ∧
      ({ State.reset with sp := 1 } : State).sp.val = (0 : Fin 16).val + 1 ∧
      ({ State.reset with sp := 15 } : State).sp.val = (15 : Fin 16).val ∧ State.reset.sp.val = (0 : Fin 16).val := by decide

theorem witness_CallThenRetResumesAfterCall :
    let s := ({ start 0x2FFF with sp := 15 } : State)
    s.sp.val < 16 ∧ ∃ t u, exec (.call 0xFFF) s = .next t ∧ exec .ret t = .next u := ⟨by decide, _, _, rfl, rfl⟩

theorem witness_StackFaults :
    ({ start 0x2300 with sp := 16 } : State).sp.val = 16 ∧
      decodeWord ({ start 0x2300 with sp := 16 } : State).opcodeAtPc = .ok (.call 0x300) ∧
      (start 0x00EE).sp.val = 0 ∧ decodeWord (start 0x00EE).opcodeAtPc = .ok .ret := by decide

theorem witness_flag_order : State.reset.cfg.vfDestOrder = .flagLast ∧ (14 : Reg) ≠ VF ∧
    State.reset.cfg.shiftSource = .vx ∧ (withConfig otherConfig State.reset).cfg.shiftSource = .vy := by decide

theorem witness_VfDestinationOrders :
    let c : Config := { Config.taken with vfDestOrder := .flagFirst }
    (withConfig c State.reset).cfg.vfDestOrder = .flagFirst ∧
      (withConfig { c with vfDestOrder := .refuse } State.reset).cfg.vfDestOrder = .refuse := by decide

theorem witness_RndDrawsOneByte :
    ({ State.reset with rnd := { supplied := [0xA7], drawn := 0 } } : State).rnd.supplied = 0xA7 :: [] := rfl

/-- The last I from which an access of the stated length is in range with ADDR_OOR_POLICY = fault. -/
theorem witness_block_bounds :
    ({ withConfig otherConfig State.reset with i := 0x0FFD } : State).i.toNat + 2 ≤ 0x0FFF ∧
      ({ withConfig otherConfig State.reset with i := 0x0FF0 } : State).i.toNat + (15 : Reg).val ≤ 0x0FFF ∧
      State.reset.cfg.addrOorPolicy = .wrap := by decide

theorem witness_StoreThenLoadRestoresRegisters : ∃ t u,
    exec (.storeRegs 15) ({ State.reset with i := 0x0FFF } : State) = .next t ∧
      exec (.loadRegs 15) { t with v := Vector.replicate 16 0xAA } = .next u := ⟨_, _, rfl, rfl⟩

theorem witness_StoreSeenByNextFetch :
    let s := ({ start 0xF155 with i := 0x0202 } : State)
    0 < (1 : Reg).val ∧ s.i = s.pc + 2 ∧ ∃ t, exec (.storeRegs 1) s = .next t := ⟨by decide, by decide, _, rfl⟩

theorem witness_DrawTwiceRestores :
    (0 : Reg) ≠ VF ∧ (1 : Reg) ≠ VF ∧ (∀ px py, State.reset.fb.cell px py = 0) ∧
      ∃ t u, exec (.drw 0 1 5) State.reset = .next t ∧ exec (.drw 0 1 5) t = .next u :=
  ⟨by decide, by decide, Framebuffer.cell_blank, _, _, rfl, rfl⟩

/-- The last cell of the screen lit, and a sprite on it. -/
def corner : State := withRegs [(0, 63), (1, 31)] ({ State.reset with fb := lit [(63, 31)] } : State)

theorem corner_v0 : (corner.v[(0 : Reg).val]).toNat = 63 := by decide

theorem witness_DrawXorsAndDetectsCollision :
    (SpriteBitAt corner 0 1 5 63 31 ∧ corner.fb.cell 63 31 ≠ 0) ∧ ¬ SpriteBitAt corner 0 1 5 62 31 ∧
      (withConfig otherConfig corner).cfg.drwRedraw = .onChange ∧ corner.cfg.drwRedraw = .always := by
  refine ⟨⟨⟨0, 0, by decide⟩, by decide⟩, ?_, rfl, rfl⟩
  rintro ⟨r, c, -, -, h, -⟩
  rw [corner_v0] at h
  omega

theorem witness_KeySkips :
    let s := withRegs [(1, 15), (2, 16)] State.reset
    s.cfg.keyIndexMode = .mask4 ∧ s.v[1].toNat ≤ 15 ∧ 15 < s.v[2].toNat ∧
      (withConfig otherConfig s).cfg.keyIndexMode = .fault ∧
      (withConfig { Config.taken with keyIndexMode := .notPressed } s).cfg.keyIndexMode = .notPressed := by decide

theorem witness_KeyWait : (∀ k, k < 16 → (start 0xF00A).keyDown k = false) ∧
    ({ start 0xF00A with key := pressed [0, 15] } : State).keyDown 15 = true ∧
    ({ start 0xF00A with key := pressed [0, 15] } : State).keyDown 0 = true ∧
    decodeWord (start 0xF00A).opcodeAtPc = .ok (.ldVxK 0) := by decide

theorem witness_all_keys_up : ∀ k, (start 0xF00A).keyDown k = false := by
  intro k
  by_cases h : k < 16
  · exact witness_KeyWait.1 k h
  · simp [State.keyDown, h]

theorem witness_TimerMoveCycles : decodeWord (start 0xF307).opcodeAtPc = .ok (.ldVxDt 3) ∧
    decodeWord (start 0xF315).opcodeAtPc = .ok (.ldDtVx 3) ∧
    decodeWord (start 0xF318).opcodeAtPc = .ok (.ldStVx 3) := by decide

/-- Frames: an instruction that stores nothing, and for each storing one an address outside its bytes. -/
theorem witness_frames : (∀ x, Instr.cls ≠ .ldB x ∧ Instr.cls ≠ .storeRegs x) ∧ (∃ t, exec .cls State.reset = .next t) ∧
    (∃ t, exec (.ldB 0) State.reset = .next t) ∧ (∀ k, k < 3 → effective 3 ≠ effective (State.reset.atI k)) ∧
    (∃ t, exec (.storeRegs 15) State.reset = .next t) ∧
    (∀ k, k ≤ 15 → effective 4095 ≠ effective (State.reset.atI k)) ∧
    writesV (.addReg 1 2) 2 = false ∧ (∃ t, exec (.addReg 1 2) State.reset = .next t) := by
  refine ⟨by simp, ⟨_, rfl⟩, ⟨_, rfl⟩, by decide, ⟨_, rfl⟩, by decide, by decide, _, rfl⟩

theorem witness_OnlyThreeFaults : (start 0x6000).cfg = Config.taken ∧ (start 0x6000).status = .running := by decide

theorem witness_FaultsArePrecise : ∃ t, step (start 0x5001) = .next t ∧ t.status = .fault (.decodeError 0x5001) :=
  ⟨_, rfl, rfl⟩

theorem witness_LoadResets : (List.replicate 3584 (0xAB : Byte)).length ≤ 3584 ∧
    3584 < (List.replicate 3585 (0xAB : Byte)).length := by
  rw [List.length_replicate, List.length_replicate]
  decide

theorem witness_PowerOn : ({ State.reset with status := .unloaded, pc := 0x1234 } : State).PowerOn := by
  refine ⟨rfl, ?_, rfl, rfl⟩
  decide

theorem witness_HostKeyAndFlagOperations : 15 < 16 := by decide

theorem witness_SnapshotIsRowMajor : State.reset.status ≠ .unloaded ∧
    ({ State.reset with status := .unloaded } : State).status = .unloaded := by decide

theorem witness_Inv : State.reset.Inv ∧ ∃ t, step State.reset = .next t :=
  ⟨⟨Memory.nil_wf _, fun x y => .inl (Framebuffer.cell_blank x y), by decide, by decide⟩, _, rfl⟩

theorem witness_load_bound : (List.replicate 3584 (0xAB : Byte)).length ≤ 3584 := witness_LoadResets.1

/-- Every operation of the host that answers a next state, from a state that meets the invariant. -/
theorem witness_operations : State.reset.Inv ∧ (∃ t, Operation.step.perform State.reset = .next t) ∧
    (∃ t, (Operation.load []).perform State.reset = .next t) ∧
    (∃ t, (Operation.setKey 15 true).perform State.reset = .next t) ∧
    (∃ t, Operation.framebufferSnapshot.perform State.reset = .next t) ∧
    (∃ t, Operation.redrawPending.perform State.reset = .next t) ∧
    (∃ t, Operation.soundPending.perform State.reset = .next t) ∧
    (∃ t, Operation.ackRedraw.perform State.reset = .next t) ∧
    (∃ t, Operation.ackSound.perform State.reset = .next t) :=
  ⟨witness_Inv.1, ⟨_, rfl⟩, ⟨_, rfl⟩, ⟨_, rfl⟩, ⟨_, rfl⟩, ⟨_, rfl⟩, ⟨_, rfl⟩, ⟨_, rfl⟩, _, rfl⟩

theorem witness_Reachable : Reachable (State.reset.load []) := .loaded _ _ (by simp)

theorem witness_Reachable_step : ∃ t, Reachable t ∧ t.status ≠ .running :=
  ⟨_, .operation (start 0x5001) _ .step (.loaded _ _ (by simp)) rfl, by decide⟩

/-- An instruction none of the other parameters has a say in. -/
theorem witness_InsensitiveTo : InsensitiveTo (start 0x6A05) (.ldByte 0xA 5) otherConfig where
  font := rfl
  sysPolicy := .inr (by simp)
  shiftSource := .inr (by simp)
  vfDestOrder := .inr (by simp)
  iStoreMask := .inr (by simp)
  addrOorPolicy := .inr (by decide)
  keyIndexMode := .inr (by simp)
  keyScanWinner := .inr (by simp)

theorem witness_StepInsensitiveToParameters :
    (∀ i, decodeWord (start 0x6A05).opcodeAtPc = .ok i → InsensitiveTo (start 0x6A05) i otherConfig) ∧
      (start 0x6A05).pc.toNat + 1 ≤ 0x0FFF := by
  refine ⟨fun i h => ?_, by decide⟩
  have hi : i = .ldByte 0xA 5 := by
    rw [show decodeWord (start 0x6A05).opcodeAtPc = .ok (.ldByte 0xA 5) by decide] at h
    cases h
    rfl
  rw [hi]
  exact witness_InsensitiveTo

/-- The bounds of the clauses that depend on the operands: a sum of 0x0FFF, a key value of 15, one key down. -/
theorem witness_InsensitiveTo_bounds :
    let s := withRegs [(1, 15)] ({ State.reset with i := 0x0FF0, key := pressed [15] } : State)
    s.i.toNat + (s.getV 1).toNat ≤ 0x0FFF ∧ (s.getV 1).toNat ≤ 15 ∧ s.pressedKeys.length ≤ 1 ∧
      s.dataSum (.loadRegs 15) = some 0x0FFF := by decide

/-- A step of a key instruction, for the clause that holds of every step. -/
theorem witness_step_of_key_instruction : decodeWord (start 0xE19E).opcodeAtPc = .ok (.skp 1) ∧
    ∃ t, step (start 0xE19E) = .next t := ⟨by decide, _, rfl⟩

theorem witness_OnlyKeyInstructionsReadKeys :
    (∀ x, decodeWord (start 0x6A05).opcodeAtPc ≠ .ok (.skp x) ∧ decodeWord (start 0x6A05).opcodeAtPc ≠ .ok (.sknp x) ∧
      decodeWord (start 0x6A05).opcodeAtPc ≠ .ok (.ldVxK x)) ∧ ∃ t, step (start 0x6A05) = .next t :=
  ⟨by decide, _, rfl⟩

theorem witness_Idle : (start 0x1200).Idle ∧ ({ start 0x1200 with st := 255 } : State).st.toNat ≤ 255 :=
  ⟨⟨by decide, 0x200, by decide, by decide⟩, by decide⟩

end Sys2Proof.Tests
end

