-- ==== Sys2Proof/Proofs/Encoding.lean ====
section
/-! PROOFS. Decoding inverts encoding (spec/30_encoding.md rules R94, R95): the families whose words a decoder of their
own takes, then every well-formed instruction, then the bytes in memory. -/

namespace Sys2Proof

/-! ### The families with a decoder of their own -/

theorem decodeWord_of_opField_zero {w : Word} (h : opField w = 0x0) : decodeWord w = decode0 w := by
  simp [decodeWord, h]

theorem decodeWord_of_opField_eight {w : Word} (h : opField w = 0x8) : decodeWord w = decode8 w := by
  simp [decodeWord, h]

theorem decodeWord_of_opField_E {w : Word} (h : opField w = 0xE) : decodeWord w = decodeE w := by
  simp [decodeWord, h]

theorem decodeWord_of_opField_F {w : Word} (h : opField w = 0xF) : decodeWord w = decodeF w := by
  simp [decodeWord, h]

/-- Words whose `nnn` field is that of neither CLS nor RET are words of row 1, SYS (R95). -/
theorem decode0_of_nnnField_ne {w : Word} (hcls : nnnField w ≠ 0x0E0) (hret : nnnField w ≠ 0x0EE) :
    decode0 w = .ok (.sys (nnnField w)) := by
  have hw_cls : w ≠ 0x00E0 := fun hw => hcls (congrArg nnnField hw)
  have hw_ret : w ≠ 0x00EE := fun hw => hret (congrArg nnnField hw)
  rw [decode0, if_neg hw_cls, if_neg hw_ret]

/-! ### Every instruction -/

/-- The decoder finds the row of every well-formed instruction, by the format and family of its opcode (R92, R95). -/
theorem decodeWord_encode {i : Instr} (h : i.wellFormed = true) : decodeWord (encode i) = .ok i := by
  cases i with
  | sys nnn =>
    obtain ⟨hcls, hret⟩ : nnn ≠ 0x0E0 ∧ nnn ≠ 0x0EE := by simpa [Instr.wellFormed] using h
    rw [encode, decodeWord_of_opField_zero (opField_packA ..), decode0_of_nnnField_ne, nnnField_packA]
    · rwa [nnnField_packA]
    · rwa [nnnField_packA]
  | cls | ret => rfl
  | jp | call | ldI | jpV0 | seByte | sneByte | ldByte | addByte | rnd | seReg | sneReg | drw =>
    simp [encode, decodeWord]
  | ldReg | orReg | andReg | xorReg | addReg | subReg | shr | subn | shl =>
    rw [encode, decodeWord_of_opField_eight (opField_packXY ..)]
    simp [decode8]
  | skp | sknp =>
    rw [encode, decodeWord_of_opField_E (opField_packXK ..)]
    simp [decodeE]
  | ldVxDt | ldVxK | ldDtVx | ldStVx | addI | ldF | ldB | storeRegs | loadRegs =>
    rw [encode, decodeWord_of_opField_F (opField_packXK ..)]
    simp [decodeF]

/-- The stream decoder reads the two bytes of an instruction, high byte first (R67), and leaves the rest. -/
theorem decode_encodeBytes_append (i : Instr) (rest : List Byte) :
    decode (encodeBytes i ++ rest) = (decodeWord (encode i)).map (fun j => (j, rest)) := by
  simp [encodeBytes, decode]

/-- Settles O1: the two bytes are read back as the word `encode i`, which decodes to `i`. -/
theorem decodeOfEncode : Obligations.DecodeOfEncode := by
  intro i rest hwf
  rw [decode_encodeBytes_append, decodeWord_encode hwf]
  rfl

end Sys2Proof
end

