-- ==== Sys2Proof/Proofs/Flow.lean ====
section
/-! PROOFS. Jumps and compare-and-skip (spec/40_cycle_and_flow.md rules R125, R127 to R131): the targets as numbers, the
conditional skip as one update of PC, then the instructions. -/

namespace Sys2Proof.Machine

/-! ### Jump targets as numbers -/

theorem addrWord_eq_ofNat (nnn : Addr) : addrWord nnn = BitVec.ofNat 16 nnn.toNat :=
  (BitVec.ofNat_toNat 16 nnn).symm

theorem State.jumpTarget_eq_ofNat (s : State) (nnn : Addr) :
    s.jumpTarget nnn = BitVec.ofNat 16 (nnn.toNat + (s.getV 0).toNat) := by
  rw [State.jumpTarget, addrWord_eq_ofNat, BitVec.ofNat_add, BitVec.ofNat_toNat 16 (s.getV 0)]

/-- The largest target of JP V0 is 0x0FFF + 0xFF, so the sum of R131 stays within 16 bits (D31). -/
theorem addr_add_byte_le (nnn : Addr) (b : Byte) : nnn.toNat + b.toNat ≤ 0x10FE := by
  have hnnn := nnn.isLt
  have hb := b.isLt
  omega

/-! ### The conditional skip -/

/-- "if … then skip else next" is one update of PC, by 4 or by 2 (R121). -/
theorem State.skipIf_eq (s : State) (c : Bool) : s.skipIf c = { s with pc := s.pc + if c then 4 else 2 } := by
  cases c <;> rfl

/-! ### What the instructions answer -/

theorem exec_jp (nnn : Addr) (s : State) : exec (.jp nnn) s = .next { s with pc := addrWord nnn } := rfl

theorem exec_jpV0 (nnn : Addr) (s : State) : exec (.jpV0 nnn) s = .next { s with pc := s.jumpTarget nnn } := rfl

theorem exec_seByte (x : Reg) (kk : Byte) (s : State) :
    exec (.seByte x kk) s = .next (s.skipIf (s.getV x == kk)) := rfl

theorem exec_sneByte (x : Reg) (kk : Byte) (s : State) :
    exec (.sneByte x kk) s = .next (s.skipIf (s.getV x != kk)) := rfl

theorem exec_seReg (x y : Reg) (s : State) :
    exec (.seReg x y) s = .next (s.skipIf (s.getV x == s.getV y)) := rfl

theorem exec_sneReg (x y : Reg) (s : State) :
    exec (.sneReg x y) s = .next (s.skipIf (s.getV x != s.getV y)) := rfl

/-! ### The obligations -/

/-- Settles O16: both targets are written as 16-bit numbers, and the sum of JP V0 is bounded by its operands' widths. -/
theorem jumpsSetPc : Obligations.JumpsSetPc := by
  intro nnn s
  refine ⟨?_, ?_, addr_add_byte_le nnn (s.getV 0)⟩
  · rw [exec_jp, addrWord_eq_ofNat]
  · rw [exec_jpV0, State.jumpTarget_eq_ofNat]

/-- Settles O17: each of the four is a `skipIf` on its comparison, the Boolean test read as a proposition. -/
theorem skipsCompare : Obligations.SkipsCompare := by
  intro x y kk s
  refine ⟨?_, ?_, ?_, ?_⟩
  · simp only [exec_seByte, State.skipIf_eq, beq_iff_eq]
  · simp only [exec_sneByte, State.skipIf_eq, bne_iff_ne]
  · simp only [exec_seReg, State.skipIf_eq, beq_iff_eq]
  · simp only [exec_sneReg, State.skipIf_eq, bne_iff_ne]

end Sys2Proof.Machine
end

