-- ==== Sys2Proof/Proofs/Alu.lean ====
section
/-! PROOFS. Register loads, ADD and SUB (spec/41_alu.md rules R150 to R153, R157, R158): the plain and the flagged
register write, results and flags as numbers, then the instructions. -/

namespace Sys2Proof.Machine

/-! ### The two register writes -/

/-- A register write and the advance of PC as one update (R121). -/
theorem State.next_setV_eq (s : State) (x : Reg) (b : Byte) :
    (s.setV x b).next = { s with v := s.v.set x.val b, pc := s.pc + 2 } := rfl

/-- An instruction that is one flagged write has the common form of R150: what is left to say of it is its result and
its flag as numbers. -/
theorem writesResultThenFlag_of_exec_eq {i : Instr} {x : Reg} {s : State} {r : Flagged} {result flag : Nat}
    (horder : s.cfg.vfDestOrder = .flagLast ∨ x ≠ VF) (hexec : exec i s = s.writeFlagged x r)
    (hresult : r.1.toNat = result) (hflag : (flagByte r.2).toNat = flag) :
    WritesResultThenFlag i x s result flag :=
  ⟨r.1, flagByte r.2, hresult, hflag, hexec.trans (s.writeFlagged_last x r horder)⟩

/-! ### Carry and borrow as numbers -/

/-- The carry (R157). -/
theorem addFlag_toNat (a b : Byte) :
    (flagByte (addFlagged a b).2).toNat = if a.toNat + b.toNat > 255 then 1 else 0 := by
  simp only [flagByte_toNat, addFlagged, decide_eq_true_eq, gt_iff_lt]

/-- Not-borrow (R158). -/
theorem subFlag_toNat (a b : Byte) :
    (flagByte (subFlagged a b).2).toNat = if a.toNat ≥ b.toNat then 1 else 0 := by
  simp only [flagByte_toNat, subFlagged, decide_eq_true_eq, ge_iff_le]

/-- The difference mod 256 by cases: 256 is borrowed when the second operand is the larger (R158). -/
theorem subFlagged_toNat_eq_ite (a b : Byte) :
    (subFlagged a b).1.toNat = if a.toNat ≥ b.toNat then a.toNat - b.toNat else a.toNat + 256 - b.toNat := by
  have ha := a.isLt
  have hb := b.isLt
  rw [subFlagged_toNat]
  split
  case isTrue hge => omega
  case isFalse hlt => omega

/-! ### What the instructions answer -/

theorem exec_ldByte (x : Reg) (kk : Byte) (s : State) : exec (.ldByte x kk) s = .next (s.setV x kk).next := rfl

theorem exec_ldReg (x y : Reg) (s : State) : exec (.ldReg x y) s = .next (s.setV x (s.getV y)).next := rfl

theorem exec_addByte (x : Reg) (kk : Byte) (s : State) :
    exec (.addByte x kk) s = .next (s.setV x (addFlagged (s.getV x) kk).1).next := rfl

theorem exec_addReg (x y : Reg) (s : State) :
    exec (.addReg x y) s = s.writeFlagged x (addFlagged (s.getV x) (s.getV y)) := rfl

theorem exec_subReg (x y : Reg) (s : State) :
    exec (.subReg x y) s = s.writeFlagged x (subFlagged (s.getV x) (s.getV y)) := rfl

/-! ### The obligations -/

/-- Settles O18: each of the three is one register write; the byte ADD Vx,byte writes is the sum without its carry. -/
theorem loadsAndAddByte : Obligations.LoadsAndAddByte := by
  intro x y kk s
  refine ⟨?_, ?_, (addFlagged (s.getV x) kk).1, addFlagged_toNat (s.getV x) kk, ?_⟩
  · rw [exec_ldByte, State.next_setV_eq]
  · rw [exec_ldReg, State.next_setV_eq, State.getV]
  · rw [exec_addByte, State.next_setV_eq]

/-- Settles O20: a flagged write of the sum mod 256 and the carry. -/
theorem addCarryLaw : Obligations.AddCarryLaw := by
  intro x y s horder
  exact writesResultThenFlag_of_exec_eq horder (exec_addReg x y s)
    (addFlagged_toNat (s.getV x) (s.getV y)) (addFlag_toNat (s.getV x) (s.getV y))

/-- Settles O21: a flagged write of the difference, by cases on the borrow, and not-borrow. -/
theorem subBorrowLaw : Obligations.SubBorrowLaw := by
  intro x y s horder
  exact writesResultThenFlag_of_exec_eq horder (exec_subReg x y s)
    (subFlagged_toNat_eq_ite (s.getV x) (s.getV y)) (subFlag_toNat (s.getV x) (s.getV y))

end Sys2Proof.Machine
end

/-! PROOFS. The loads of I (spec/42_index_memory.md rules R180, R182): the two values as numbers, then the
instructions. -/

namespace Sys2Proof.Machine

/-! ### The values loaded, as numbers -/

/-- A 12-bit address keeps its value as a word of I (R180). -/
theorem addrWord_toNat (nnn : Addr) : (addrWord nnn).toNat = nnn.toNat :=
  BitVec.toNat_setWidth_of_le (by decide)

/-- Five times the largest byte is 1275, so the product of R182 is not reduced mod 65536. -/
theorem glyphAddress_toNat (b : Byte) : (glyphAddress b).toNat = b.toNat * 5 := by
  have hb := b.isLt
  rw [glyphAddress, BitVec.toNat_ofNat, Nat.mod_eq_of_lt (by omega)]

/-! ### What the instructions answer -/

theorem exec_ldI (nnn : Addr) (s : State) : exec (.ldI nnn) s = .next { s with i := addrWord nnn }.next := rfl

theorem exec_ldF (x : Reg) (s : State) : exec (.ldF x) s = .next { s with i := glyphAddress (s.getV x) }.next := rfl

/-! ### The obligation -/

/-- Settles O26: each of the two is one write of I and the advance of PC; neither value is reduced. -/
theorem indexLoads : Obligations.IndexLoads := by
  intro x nnn s
  refine ⟨addrWord nnn, glyphAddress (s.getV x), addrWord_toNat nnn, glyphAddress_toNat (s.getV x), ?_, ?_⟩
  · rw [exec_ldI, State.next]
  · rw [exec_ldF, State.next]

end Sys2Proof.Machine

/-! PROOFS. CLS (spec/43_display.md rule R200): the framebuffer it writes is the blank one, whose cells the framebuffer
laws give. -/

namespace Sys2Proof.Machine

theorem exec_cls (s : State) :
    exec .cls s = .next { s with fb := Framebuffer.blank, redrawPending := true }.next := rfl

/-- Settles O34: CLS is one write of the blank framebuffer and the redraw request, and the advance of PC. -/
theorem clsClears : Obligations.ClsClears := by
  intro s
  refine ⟨Framebuffer.blank, ?_, ?_⟩
  · intro x y _ _
    exact Framebuffer.cell_blank x y
  · rw [exec_cls, State.next]

end Sys2Proof.Machine

/-! PROOFS. The illegal word (spec/60_exceptions.md rules R241, R248): the word a fetch reads, as a number, then the
cycle that runs a word which is no instruction. -/

namespace Sys2Proof.Machine

/-- The fetched word has the byte at PC as its high byte and the byte at PC + 1 as its low byte (R67). -/
theorem State.opcodeAtPc_toNat (s : State) :
    s.opcodeAtPc.toNat = (s.readByte s.pc.toNat).toNat * 256 + (s.readByte (s.pc.toNat + 1)).toNat :=
  wordOfBytes_toNat _ _

/-- A word the decoder rejects raises DecodeError with that word, and no tick follows (R120, R241). -/
theorem runWord_of_decodeWord_error {w : Word} {e : Reject} (s : State) (h : decodeWord w = .error e) :
    runWord s w = .next (s.raise (.decodeError w)) := by
  rw [runWord, h]

/-- Settles O7: the number given for `w` makes it the fetched word, which the running machine then runs as a word the
decoder rejects. -/
theorem illegalWordRaisesDecodeError : Obligations.IllegalWordRaisesDecodeError := by
  intro s w hrunning hinRange hbytes hillegal
  have hfetched : s.opcodeAtPc = w := BitVec.eq_of_toNat_eq (s.opcodeAtPc_toNat.trans hbytes.symm)
  rw [step_running s hrunning hinRange, hfetched, runWord_of_decodeWord_error s hillegal, State.raise]

end Sys2Proof.Machine

/-! PROOFS. What an instruction can do, said once (spec/40_cycle_and_flow.md rule R120): the answer of every
instruction whose equation is not above, then `Effect`, the shapes of every next state `exec` answers. The frames, the
advance of PC, the faults and the invariant are read off these shapes. -/

namespace Sys2Proof

/-- The six instructions that may skip (R121). -/
def Instr.IsSkip (i : Instr) : Prop :=
  (∃ x kk, i = .seByte x kk ∨ i = .sneByte x kk) ∨ (∃ x y, i = .seReg x y ∨ i = .sneReg x y) ∨
    ∃ x, i = .skp x ∨ i = .sknp x

end Sys2Proof

namespace Sys2Proof.Machine

/-! ### What the instructions answer -/

theorem exec_sys (nnn : Addr) (s : State) : exec (.sys nnn) s = execSys nnn s := rfl

theorem exec_sys_fault {s : State} (nnn : Addr) (h : s.cfg.sysPolicy = .fault) :
    exec (.sys nnn) s = .next (s.raise (.decodeError (encode (.sys nnn)))) := by
  rw [exec_sys, execSys, h]

theorem exec_sys_nop {s : State} (nnn : Addr) (h : s.cfg.sysPolicy = .nop) : exec (.sys nnn) s = .next s.next := by
  rw [exec_sys, execSys, h]

theorem exec_ret (s : State) : exec .ret s = .next s.popReturn := rfl

theorem exec_call (nnn : Addr) (s : State) : exec (.call nnn) s = .next (s.pushJump (addrWord nnn)) := rfl

theorem exec_orReg (x y : Reg) (s : State) :
    exec (.orReg x y) s = .next (s.setV x (s.getV x ||| s.getV y)).next := rfl

theorem exec_andReg (x y : Reg) (s : State) :
    exec (.andReg x y) s = .next (s.setV x (s.getV x &&& s.getV y)).next := rfl

theorem exec_xorReg (x y : Reg) (s : State) :
    exec (.xorReg x y) s = .next (s.setV x (s.getV x ^^^ s.getV y)).next := rfl

theorem exec_shr (x y : Reg) (s : State) :
    exec (.shr x y) s = s.writeFlagged x (shrFlagged (s.shiftOperand x y)) := rfl

theorem exec_subn (x y : Reg) (s : State) :
    exec (.subn x y) s = s.writeFlagged x (subFlagged (s.getV y) (s.getV x)) := rfl

theorem exec_shl (x y : Reg) (s : State) :
    exec (.shl x y) s = s.writeFlagged x (shlFlagged (s.shiftOperand x y)) := rfl

theorem exec_rnd (x : Reg) (kk : Byte) (s : State) :
    exec (.rnd x kk) s =
      .next (({ s with rnd := s.rnd.draw.2 } : State).setV x (s.rnd.draw.1 &&& kk)).next := rfl

/-- The framebuffer and the collision a DRW with these operands leaves (R201). -/
def State.drawing (s : State) (x y : Reg) (n : Fin 16) : Drawing :=
  s.fb.draw (s.getV x).toNat (s.getV y).toNat (s.sprite n.val)

theorem exec_drw (x y : Reg) (n : Fin 16) (s : State) :
    exec (.drw x y n) s =
      s.withAddress (if n.val = 0 then 0 else s.atI (n.val - 1)) (.next (s.drawSprite (s.drawing x y n)).next) := rfl

theorem exec_skp (x : Reg) (s : State) :
    exec (.skp x) s = s.withKey (s.getV x) (fun down => .next (s.skipIf down)) := rfl

theorem exec_sknp (x : Reg) (s : State) :
    exec (.sknp x) s = s.withKey (s.getV x) (fun down => .next (s.skipIf (!down))) := rfl

theorem exec_ldVxDt (x : Reg) (s : State) : exec (.ldVxDt x) s = .next (s.setV x s.dt).next := rfl

theorem exec_ldVxK_wait {s : State} (x : Reg) (h : s.pressedKeys = []) : exec (.ldVxK x) s = .next s := by
  rw [exec, execLdVxK, h]

theorem exec_ldVxK_scan {s : State} {k : Reg} {ks : List Reg} (x : Reg) (h : s.pressedKeys = k :: ks) :
    exec (.ldVxK x) s =
      .next (({ s with keyScans := s.keyScans + 1 } : State).setV x (BitVec.ofNat 8 (s.scanWinner k ks).val)).next := by
  rw [exec, execLdVxK, h]

theorem exec_ldDtVx (x : Reg) (s : State) : exec (.ldDtVx x) s = .next { s with dt := s.getV x }.next := rfl

theorem exec_ldStVx (x : Reg) (s : State) : exec (.ldStVx x) s = .next { s with st := s.getV x }.next := rfl

/-- The sum ADD I,Vx forms, not reduced (R181). -/
def State.indexSum (s : State) (x : Reg) : Nat := s.i.toNat + (s.getV x).toNat

theorem exec_addI (x : Reg) (s : State) :
    exec (.addI x) s =
      .next (({ s with i := s.storedI (s.indexSum x) } : State).setV VF (flagByte (overflow12 (s.indexSum x)))).next :=
  rfl

theorem exec_ldB (x : Reg) (s : State) :
    exec (.ldB x) s = s.withAddress (s.atI 2) (.next (s.writeBytes (s.atI 0) (bcdDigits (s.getV x))).next) := rfl

theorem exec_storeRegs (x : Reg) (s : State) :
    exec (.storeRegs x) s = s.withAddress (s.atI x.val) (.next (s.storeRegs (s.atI 0) (x.val + 1)).next) := rfl

theorem exec_loadRegs (x : Reg) (s : State) :
    exec (.loadRegs x) s = s.withAddress (s.atI x.val) (.next (s.loadRegs (s.atI 0) (x.val + 1)).next) := rfl

/-! ### The shapes of a next state -/

/-- `Effect s i t`: `t` has one of the shapes of a next state of `i` executed in `s`. Instructions with one shape in
common share a constructor, which keeps of the instruction what the frames need. -/
inductive Effect (s : State) : Instr → State → Prop
  | illegal (nnn : Addr) : Effect s (.sys nnn) (s.raise (.decodeError (encode (.sys nnn))))
  | nop (nnn : Addr) : Effect s (.sys nnn) s.next
  | clear : Effect s .cls ({ s with fb := Framebuffer.blank, redrawPending := true } : State).next
  | ret : Effect s .ret s.popReturn
  | jump (nnn : Addr) : Effect s (.jp nnn) { s with pc := addrWord nnn }
  | call (nnn : Addr) : Effect s (.call nnn) (s.pushJump (addrWord nnn))
  | jumpV0 (nnn : Addr) : Effect s (.jpV0 nnn) { s with pc := s.jumpTarget nnn }
  | skip (i : Instr) (c : Bool) (hi : i.IsSkip) : Effect s i (s.skipIf c)
  | register (i : Instr) (x : Reg) (b : Byte) (hi : ∀ r, writesV i r = (r == x)) : Effect s i (s.setV x b).next
  | flagged (i : Instr) (x : Reg) (v : Vector Byte 16) (hi : ∀ r, writesV i r = (r == x || r == VF))
      (hv : ∀ r : Reg, r ≠ x → r ≠ VF → v[r.val] = s.getV r) : Effect s i { s with v := v, pc := s.pc + 2 }
  | random (x : Reg) (kk b : Byte) (rnd : RandomSource) :
      Effect s (.rnd x kk) (({ s with rnd := rnd } : State).setV x b).next
  | draw (x y : Reg) (n : Fin 16) : Effect s (.drw x y n) (s.drawSprite (s.drawing x y n)).next
  | wait (x : Reg) (h : s.pressedKeys = []) : Effect s (.ldVxK x) s
  | scan (x : Reg) (b : Byte) :
      Effect s (.ldVxK x) (({ s with keyScans := s.keyScans + 1 } : State).setV x b).next
  | delay (x : Reg) : Effect s (.ldDtVx x) ({ s with dt := s.getV x } : State).next
  | sound (x : Reg) : Effect s (.ldStVx x) ({ s with st := s.getV x } : State).next
  | index (nnn : Addr) : Effect s (.ldI nnn) ({ s with i := addrWord nnn } : State).next
  | addIndex (x : Reg) (b : Byte) :
      Effect s (.addI x) (({ s with i := s.storedI (s.indexSum x) } : State).setV VF b).next
  | glyph (x : Reg) : Effect s (.ldF x) ({ s with i := glyphAddress (s.getV x) } : State).next
  | digits (x : Reg) (bs : List Byte) : Effect s (.ldB x) (s.writeBytes (s.atI 0) bs).next
  | store (x : Reg) : Effect s (.storeRegs x) (s.storeRegs (s.atI 0) (x.val + 1)).next
  | load (x : Reg) : Effect s (.loadRegs x) (s.loadRegs (s.atI 0) (x.val + 1)).next

/-- A flagged write has the shape `flagged`, whatever the order (R150). -/
theorem Effect.of_writeFlagged {s t : State} {i : Instr} {x : Reg} {r : Flagged} (h : s.writeFlagged x r = .next t)
    (hi : ∀ r, writesV i r = (r == x || r == VF)) : Effect s i t := by
  obtain ⟨ht, hv⟩ := State.writeFlagged_next h
  rw [ht]
  exact .flagged i x t.v hi hv

/-- Every next state of an instruction has one of the shapes. -/
theorem exec_effect {i : Instr} {s t : State} (h : exec i s = .next t) : Effect s i t := by
  cases i with
  | sys nnn =>
    cases hp : s.cfg.sysPolicy with
    | fault => rw [exec_sys_fault nnn hp] at h; cases h; exact .illegal nnn
    | nop => rw [exec_sys_nop nnn hp] at h; cases h; exact .nop nnn
  | cls => cases h; exact .clear
  | ret => cases h; exact .ret
  | jp nnn => cases h; exact .jump nnn
  | call nnn => cases h; exact .call nnn
  | jpV0 nnn => cases h; exact .jumpV0 nnn
  | seByte x kk => cases h; exact .skip _ _ (.inl ⟨x, kk, .inl rfl⟩)
  | sneByte x kk => cases h; exact .skip _ _ (.inl ⟨x, kk, .inr rfl⟩)
  | seReg x y => cases h; exact .skip _ _ (.inr (.inl ⟨x, y, .inl rfl⟩))
  | sneReg x y => cases h; exact .skip _ _ (.inr (.inl ⟨x, y, .inr rfl⟩))
  | skp x =>
    rw [exec_skp] at h
    obtain ⟨down, hdown⟩ := State.withKey_next h
    cases hdown
    exact .skip _ _ (.inr (.inr ⟨x, .inl rfl⟩))
  | sknp x =>
    rw [exec_sknp] at h
    obtain ⟨down, hdown⟩ := State.withKey_next h
    cases hdown
    exact .skip _ _ (.inr (.inr ⟨x, .inr rfl⟩))
  | ldByte x | addByte x | ldReg x | orReg x | andReg x | xorReg x | ldVxDt x =>
    cases h
    exact .register _ x _ fun _ => rfl
  | addReg x | subReg x | shr x | subn x | shl x => exact .of_writeFlagged h fun _ => rfl
  | rnd x kk => cases h; exact .random x kk _ _
  | drw x y n => cases State.withAddress_next h; exact .draw x y n
  | ldVxK x =>
    cases hk : s.pressedKeys with
    | nil => rw [exec_ldVxK_wait x hk] at h; cases h; exact .wait x hk
    | cons k ks => rw [exec_ldVxK_scan x hk] at h; cases h; exact .scan x _
  | ldDtVx x => cases h; exact .delay x
  | ldStVx x => cases h; exact .sound x
  | ldI nnn => cases h; exact .index nnn
  | addI x => cases h; exact .addIndex x _
  | ldF x => cases h; exact .glyph x
  | ldB x => cases State.withAddress_next h; exact .digits x _
  | storeRegs x => cases State.withAddress_next h; exact .store x
  | loadRegs x => cases State.withAddress_next h; exact .load x

end Sys2Proof.Machine

/-! PROOFS. The invariant (spec/10_state.md rules R39, R41): it holds after reset and after a load, and every
instruction, the tick and every host operation keep it. -/

namespace Sys2Proof.Machine

/-! ### What the invariant needs of each of its elements -/

/-- The invariant speaks of parameters, memory, framebuffer, I and `status` only. -/
theorem State.Inv.congr {s t : State} (hs : s.Inv) (hcfg : t.cfg = s.cfg) (hmem : t.mem = s.mem) (hfb : t.fb = s.fb)
    (hi : t.i = s.i) (hstatus : t.status ≠ .unloaded) : t.Inv where
  mem_wf := by rw [hmem, hcfg]; exact hs.mem_wf
  fb_binary := by rw [hfb]; exact hs.fb_binary
  loaded := hstatus
  i_low12 := by rw [hcfg, hi]; exact hs.i_low12

/-- A framebuffer drawn on keeps its cells 0 or 1 (R30, R201). -/
theorem Framebuffer.draw_binary {fb : Framebuffer} (h : ∀ x y, fb.cell x y = 0 ∨ fb.cell x y = 1) (x0 y0 : Nat)
    (sprite : List Byte) (x y : Nat) :
    (fb.draw x0 y0 sprite).1.cell x y = 0 ∨ (fb.draw x0 y0 sprite).1.cell x y = 1 := by
  by_cases hon : x < 64 ∧ y < 32
  · rw [Framebuffer.draw_cell fb x0 y0 sprite x y hon.1 hon.2]
    split
    · rcases h x y with h0 | h1
      · exact .inr (by rw [h0]; rfl)
      · exact .inl (by rw [h1]; rfl)
    · exact h x y
  · exact .inl (Framebuffer.cell_outside _ x y hon)

/-- With I_STORE_MASK = 0x0FFF the sum is stored mod 4096 (R181). -/
theorem State.storedI_le {s : State} (h : s.cfg.iStoreMask = .low12) (sum : Nat) : (s.storedI sum).toNat ≤ 0x0FFF := by
  simp only [State.storedI, h, BitVec.toNat_ofNat]
  omega

theorem addrWord_le (nnn : Addr) : (addrWord nnn).toNat ≤ 0x0FFF := by
  have hnnn := nnn.isLt
  rw [addrWord_toNat]
  omega

theorem glyphAddress_le (b : Byte) : (glyphAddress b).toNat ≤ 0x0FFF := by
  have hb := b.isLt
  rw [glyphAddress_toNat]
  omega

theorem State.pushJump_status_ne_unloaded {s : State} (h : s.status ≠ .unloaded) (target : Word) :
    (s.pushJump target).status ≠ .unloaded := by
  unfold State.pushJump
  split
  · exact h
  · exact Status.noConfusion

theorem State.popReturn_status_ne_unloaded {s : State} (h : s.status ≠ .unloaded) : s.popReturn.status ≠ .unloaded := by
  unfold State.popReturn
  split
  · exact Status.noConfusion
  · exact h

/-! ### Instructions and cycles -/

theorem State.Inv.writeBytes {s : State} (hs : s.Inv) (base : Nat) (bytes : List Byte) :
    (s.writeBytes base bytes).Inv where
  mem_wf := by simpa using s.writeBytes_wf base bytes hs.mem_wf
  fb_binary := by simpa using hs.fb_binary
  loaded := by simpa using hs.loaded
  i_low12 := by simpa using hs.i_low12

/-- Every instruction keeps the invariant: most touch none of its elements, the others one. -/
theorem Effect.inv {s t : State} {i : Instr} (h : Effect s i t) (hs : s.Inv) : t.Inv := by
  have hloaded := hs.loaded
  cases h with
  | illegal => exact hs.congr rfl rfl rfl rfl Status.noConfusion
  | nop | jump | jumpV0 | register | flagged | random | scan | delay | sound =>
    exact hs.congr rfl rfl rfl rfl hloaded
  | wait => exact hs
  | clear =>
    exact { mem_wf := hs.mem_wf, fb_binary := fun x y => .inl (Framebuffer.cell_blank x y), loaded := hloaded,
            i_low12 := hs.i_low12 }
  | ret => exact hs.congr (by simp) (by simp) (by simp) (by simp) (State.popReturn_status_ne_unloaded hloaded)
  | call => exact hs.congr (by simp) (by simp) (by simp) (by simp) (State.pushJump_status_ne_unloaded hloaded _)
  | skip => exact hs.congr (by simp) (by simp) (by simp) (by simp) (by simpa using hloaded)
  | draw =>
    exact { mem_wf := hs.mem_wf, fb_binary := Framebuffer.draw_binary hs.fb_binary _ _ _, loaded := hloaded,
            i_low12 := hs.i_low12 }
  | index => exact { hs with i_low12 := fun _ => addrWord_le _ }
  | addIndex => exact { hs with i_low12 := fun hmask => State.storedI_le hmask _ }
  | glyph => exact { hs with i_low12 := fun _ => glyphAddress_le _ }
  | digits => exact (hs.writeBytes _ _).congr rfl rfl rfl rfl (hs.writeBytes _ _).loaded
  | store =>
    exact { mem_wf := by simpa using s.storeRegs_wf _ _ hs.mem_wf, fb_binary := by simpa using hs.fb_binary,
            loaded := by simpa using hloaded, i_low12 := by simpa using hs.i_low12 }
  | load => exact hs.congr (by simp) (by simp) (by simp) (by simp) (by simpa using hloaded)

theorem State.Inv.endCycle {s : State} (hs : s.Inv) : s.endCycle.Inv := by
  unfold State.endCycle
  split
  · exact hs.congr rfl rfl rfl rfl hs.loaded
  · exact hs

theorem State.Inv.raise {s : State} (hs : s.Inv) (e : FatalError) : (s.raise e).Inv :=
  hs.congr rfl rfl rfl rfl Status.noConfusion

/-- Settles O55: a step is an instruction and the end of the cycle, or the entry of DecodeError. -/
theorem stepKeepsInvariant : Obligations.StepKeepsInvariant := by
  intro s t hs hstep
  obtain ⟨-, ⟨i, u, -, hexec, rfl⟩ | ⟨e, -, rfl⟩⟩ := step_cases hstep
  · exact ((exec_effect hexec).inv hs).endCycle
  · exact hs.raise _

/-! ### Load and the host's operations -/

/-- The state a load leaves before any byte of the program is placed (R290). -/
theorem State.loaded_nil_inv (s : State) : (s.loaded []).Inv where
  mem_wf := Memory.nil_wf _
  fb_binary x y := .inl (Framebuffer.cell_blank x y)
  loaded := Status.noConfusion
  i_low12 _ := Nat.zero_le _

theorem State.loaded_eq_writeBytes (s : State) (bytes : List Byte) :
    s.loaded bytes = (s.loaded []).writeBytes 0x200 bytes := rfl

theorem State.load_inv (s : State) (bytes : List Byte) : (s.load bytes).Inv := by
  unfold State.load
  split
  · rw [State.loaded_eq_writeBytes]
    exact s.loaded_nil_inv.writeBytes _ _
  · exact s.loaded_nil_inv.raise _

theorem Operation.perform_inv {s t : State} {op : Operation} (hs : s.Inv) (h : op.perform s = .next t) : t.Inv := by
  cases op with
  | load bytes => exact Host.Outcome.next.inj h ▸ s.load_inv bytes
  | step => exact stepKeepsInvariant s t hs h
  | setKey index pressed =>
    simp only [Operation.perform, State.setKey] at h
    split at h
    · cases h; exact hs.congr rfl rfl rfl rfl hs.loaded
    · cases h
  | framebufferSnapshot =>
    simp only [Operation.perform] at h
    split at h
    · cases h
    · cases h; exact hs
  | redrawPending | soundPending => cases h; exact hs
  | ackRedraw | ackSound => cases h; exact hs.congr rfl rfl rfl rfl hs.loaded

/-- Settles O56: a load establishes the invariant whatever its program, every operation keeps it, and the reachable
states are built from these two. -/
theorem reachableStatesMeetInvariant : Obligations.ReachableStatesMeetInvariant := by
  refine ⟨fun s bytes _ => s.load_inv bytes, fun s t op => Operation.perform_inv, fun s hs => ?_⟩
  induction hs with
  | loaded s bytes => exact s.load_inv bytes
  | operation s t op _ hperform ih => exact Operation.perform_inv ih hperform

/-- Settles O54: reset leaves the empty memory list, the blank framebuffer, I = 0 and status Running. -/
theorem resetMeetsInvariant : Obligations.ResetMeetsInvariant where
  mem_wf := Memory.nil_wf _
  fb_binary x y := .inl (Framebuffer.cell_blank x y)
  loaded := Status.noConfusion
  i_low12 _ := Nat.zero_le _

end Sys2Proof.Machine

/-! PROOFS. The decoder (spec/30_encoding.md rules R94 to R98): a word is the packing of its fields, what the mask of
a row of the opcode map keeps of a word, and from these the decoder's agreement with the map and with the table of
illegal words. -/

namespace Sys2Proof

/-! ### A word is the packing of its fields -/

theorem packA_fields (w : Word) : packA (opField w) (nnnField w) = w := by
  apply BitVec.eq_of_toNat_eq
  rw [packA_toNat, opField_toNat, nnnField_toNat]
  omega

theorem packXK_fields (w : Word) : packXK (opField w) (xField w) (kkField w) = w := by
  apply BitVec.eq_of_toNat_eq
  rw [packXK_toNat, opField_toNat, xField_val, kkField_toNat]
  omega

theorem packXY_fields (w : Word) : packXY (opField w) (xField w) (yField w) (subField w) = w := by
  apply BitVec.eq_of_toNat_eq
  rw [packXY_toNat, opField_toNat, xField_val, yField_val, subField_toNat]
  omega

theorem packA_of_opField {w : Word} {op : BitVec 4} (hop : opField w = op) : packA op (nnnField w) = w := by
  rw [← hop, packA_fields]

theorem packXK_of_opField {w : Word} {op : BitVec 4} (hop : opField w = op) :
    packXK op (xField w) (kkField w) = w := by
  rw [← hop, packXK_fields]

theorem packXK_of_fields {w : Word} {op : BitVec 4} {kk : Byte} (hop : opField w = op) (hkk : kkField w = kk) :
    packXK op (xField w) kk = w := by
  rw [← hop, ← hkk, packXK_fields]

theorem packXY_of_fields {w : Word} {op sub : BitVec 4} (hop : opField w = op) (hsub : subField w = sub) :
    packXY op (xField w) (yField w) sub = w := by
  rw [← hop, ← hsub, packXY_fields]

/-- The row count of DRW is the sub-operation field read as a number (R91). -/
theorem ofFin_nField (w : Word) : BitVec.ofFin (nField w) = subField w := rfl

/-! ### Each decoder answers the instruction its word encodes -/

theorem decode0_encode {w : Word} {i : Instr} (hop : opField w = 0x0) (h : decode0 w = .ok i) :
    i.wellFormed = true ∧ encode i = w := by
  unfold decode0 at h
  split at h
  case isTrue hcls => cases h; exact ⟨rfl, hcls.symm⟩
  case isFalse hcls =>
    split at h
    case isTrue hret => cases h; exact ⟨rfl, hret.symm⟩
    case isFalse hret =>
      cases h
      have hw : packA 0x0 (nnnField w) = w := packA_of_opField hop
      have hne_cls : nnnField w ≠ 0x0E0 := fun e => hcls (by rw [← hw, e]; rfl)
      have hne_ret : nnnField w ≠ 0x0EE := fun e => hret (by rw [← hw, e]; rfl)
      exact ⟨by simpa only [Instr.wellFormed, Bool.and_eq_true, bne_iff_ne] using ⟨hne_cls, hne_ret⟩, hw⟩

theorem decode8_encode {w : Word} {i : Instr} (hop : opField w = 0x8) (h : decode8 w = .ok i) :
    i.wellFormed = true ∧ encode i = w := by
  unfold decode8 at h
  split at h <;> cases h
  all_goals exact ⟨rfl, packXY_of_fields hop ‹_›⟩

theorem decodeE_encode {w : Word} {i : Instr} (hop : opField w = 0xE) (h : decodeE w = .ok i) :
    i.wellFormed = true ∧ encode i = w := by
  unfold decodeE at h
  split at h <;> cases h
  all_goals exact ⟨rfl, packXK_of_fields hop ‹_›⟩

theorem decodeF_encode {w : Word} {i : Instr} (hop : opField w = 0xF) (h : decodeF w = .ok i) :
    i.wellFormed = true ∧ encode i = w := by
  unfold decodeF at h
  split at h <;> cases h
  all_goals exact ⟨rfl, packXK_of_fields hop ‹_›⟩

/-- Settles O2: by the arms of the decoder, that is, by the families of the opcode map. -/
theorem encodeOfDecode : Obligations.EncodeOfDecode := by
  intro w i h
  unfold decodeWord at h
  split at h
  case h_1 hop => exact decode0_encode hop h
  case h_9 hop => exact decode8_encode hop h
  case h_15 hop => exact decodeE_encode hop h
  case h_16 => 
    have hop : opField w = 0xF := by
      simp only [imp_false] at *
      bv_omega
    exact decodeF_encode hop h
  case h_6 hop | h_10 hop =>
    split at h <;> cases h
    exact ⟨rfl, packXY_of_fields hop ‹_›⟩
  case h_14 hop => cases h; exact ⟨rfl, packXY_of_fields hop (ofFin_nField w).symm⟩
  case h_2 hop | h_3 hop | h_11 hop | h_12 hop => cases h; exact ⟨rfl, packA_of_opField hop⟩
  case h_4 hop | h_5 hop | h_7 hop | h_8 hop | h_13 hop => cases h; exact ⟨rfl, packXK_of_opField hop⟩

/-! ### What a mask of the opcode map keeps of a word -/

theorem opField_and (w m : Word) : opField (w &&& m) = opField w &&& opField m := BitVec.extractLsb'_and

theorem subField_and (w m : Word) : subField (w &&& m) = subField w &&& subField m := BitVec.extractLsb'_and

theorem kkField_and (w m : Word) : kkField (w &&& m) = kkField w &&& kkField m := BitVec.extractLsb'_and

theorem opField_and_of_F {w m : Word} (hm : opField m = 0xF) : opField (w &&& m) = opField w := by
  rw [opField_and, hm]
  exact BitVec.and_allOnes

theorem subField_and_of_F {w m : Word} (hm : subField m = 0xF) : subField (w &&& m) = subField w := by
  rw [subField_and, hm]
  exact BitVec.and_allOnes

theorem kkField_and_of_FF {w m : Word} (hm : kkField m = 0xFF) : kkField (w &&& m) = kkField w := by
  rw [kkField_and, hm]
  exact BitVec.and_allOnes

theorem opField_of_and_F000 {w p : Word} {op : BitVec 4} (h : w &&& 0xF000 = p) (hop : opField p = op) :
    opField w = op := by
  rw [← hop, ← h, opField_and_of_F rfl]

theorem packXK_of_and_F0FF {w p : Word} {op : BitVec 4} {kk : Byte} (h : w &&& 0xF0FF = p) (hop : opField p = op)
    (hkk : kkField p = kk) : packXK op (xField w) kk = w := by
  refine packXK_of_fields ?_ ?_
  · rw [← hop, ← h, opField_and_of_F rfl]
  · rw [← hkk, ← h, kkField_and_of_FF rfl]

theorem packXY_of_and_F00F {w p : Word} {op sub : BitVec 4} (h : w &&& 0xF00F = p) (hop : opField p = op)
    (hsub : subField p = sub) : packXY op (xField w) (yField w) sub = w := by
  refine packXY_of_fields ?_ ?_
  · rw [← hop, ← h, opField_and_of_F rfl]
  · rw [← hsub, ← h, subField_and_of_F rfl]

theorem and_F000 (w : Word) : w &&& 0xF000 = packA (opField w) 0 := by
  rw [← packA_fields (w &&& 0xF000), opField_and_of_F rfl]
  congr 1
  exact BitVec.extractLsb'_and.trans BitVec.and_zero

theorem and_F00F (w : Word) : w &&& 0xF00F = packXY (opField w) 0 0 (subField w) := by
  rw [← packXY_fields (w &&& 0xF00F), opField_and_of_F rfl, subField_and_of_F rfl]
  congr 1
  · exact congrArg BitVec.toFin (BitVec.extractLsb'_and.trans BitVec.and_zero)
  · exact congrArg BitVec.toFin (BitVec.extractLsb'_and.trans BitVec.and_zero)

theorem and_F0FF (w : Word) : w &&& 0xF0FF = packXK (opField w) 0 (kkField w) := by
  rw [← packXK_fields (w &&& 0xF0FF), opField_and_of_F rfl, kkField_and_of_FF rfl]
  congr 1
  exact congrArg BitVec.toFin (BitVec.extractLsb'_and.trans BitVec.and_zero)

/-! ### The operands of the opcode map are the fields -/

theorem ofNat_eq_xField (w : Word) : Fin.ofNat 16 (w.toNat / 256) = xField w := Fin.ext (xField_val w).symm

theorem ofNat_eq_yField (w : Word) : Fin.ofNat 16 (w.toNat / 16) = yField w := Fin.ext (yField_val w).symm

theorem ofNat_eq_nField (w : Word) : Fin.ofNat 16 w.toNat = nField w := Fin.ext (nField_val w).symm

theorem ofNat_eq_kkField (w : Word) : BitVec.ofNat 8 w.toNat = kkField w :=
  BitVec.eq_of_toNat_eq (kkField_toNat w).symm

theorem ofNat_eq_nnnField (w : Word) : BitVec.ofNat 12 w.toNat = nnnField w :=
  BitVec.eq_of_toNat_eq (nnnField_toNat w).symm

/-! ### The opcode map -/

/-- The decoder rejects a word only as itself (R96). -/
theorem decodeWord_error {w : Word} {e : Reject} (h : decodeWord w = .error e) : e = .illegal w := by
  unfold decodeWord decode0 decode8 decodeE decodeF at h
  repeat' split at h
  all_goals cases h
  all_goals rfl

/-- A word that matches a row is the encoding of that row's instruction with the word's operands. -/
theorem encode_of_row (w : Word) :
    ∀ row ∈ opcodeRows w, w &&& row.mask = row.pattern → row.instr.wellFormed = true ∧ encode row.instr = w := by
  simp only [opcodeRows, List.forall_mem_cons, ofNat_eq_xField, ofNat_eq_yField, ofNat_eq_nField, ofNat_eq_kkField,
    ofNat_eq_nnnField]
  refine ⟨?cls, ?ret, ?jp, ?call, ?seByte, ?sneByte, ?seReg, ?ldByte, ?addByte, ?ldReg, ?orReg, ?andReg, ?xorReg,
    ?addReg, ?subReg, ?shr, ?subn, ?shl, ?sneReg, ?ldI, ?jpV0, ?rnd, ?drw, ?skp, ?sknp, ?ldVxDt, ?ldVxK, ?ldDtVx,
    ?ldStVx, ?addI, ?ldF, ?ldB, ?storeRegs, ?loadRegs, List.forall_mem_nil _⟩
  all_goals intro h; refine ⟨rfl, ?_⟩
  case cls | ret => exact h.symm.trans BitVec.and_allOnes
  case jp | call | ldI | jpV0 => exact packA_of_opField (opField_of_and_F000 h rfl)
  case seByte | sneByte | ldByte | addByte | rnd => exact packXK_of_opField (opField_of_and_F000 h rfl)
  case drw => exact packXY_of_fields (opField_of_and_F000 h rfl) (ofFin_nField w).symm
  case seReg | sneReg | ldReg | orReg | andReg | xorReg | addReg | subReg | shr | subn | shl =>
    exact packXY_of_and_F00F h rfl rfl
  case skp | sknp | ldVxDt | ldVxK | ldDtVx | ldStVx | addI | ldF | ldB | storeRegs | loadRegs =>
    exact packXK_of_and_F0FF h rfl rfl

/-- The encoding of an instruction other than SYS matches a row. -/
theorem encode_matches_row {i : Instr} (hi : ∀ nnn, i ≠ .sys nnn) :
    ∃ row ∈ opcodeRows (encode i), encode i &&& row.mask = row.pattern := by
  simp only [opcodeRows, List.exists_mem_cons_iff, and_F000, and_F00F, and_F0FF]
  cases i with
  | sys nnn => exact absurd rfl (hi nnn)
  | cls | ret => decide
  | _ =>
    simp only [encode, opField_packA, opField_packXK, opField_packXY, kkField_packXK, subField_packXY]
    simp [packA, packXK, packXY]

/-- Settles O3: a matching row gives the encoding, which decodes back; a word of row 1 is no literal; and a word that
decodes at all is an encoding, so it matches a row. -/
theorem opcodeMapDecides : Obligations.OpcodeMapDecides := by
  intro w
  refine ⟨?rows, ?sys, ?illegal⟩
  case rows =>
    intro row hrow hmatch
    obtain ⟨hwf, henc⟩ := encode_of_row w row hrow hmatch
    rw [← henc]
    exact decodeWord_encode hwf
  case sys =>
    intro h0 hcls hret
    rw [decodeWord_of_opField_zero (opField_of_and_F000 h0 rfl), decode0, if_neg hcls, if_neg hret, ofNat_eq_nnnField]
  case illegal =>
    intro h0 hnone
    cases hd : decodeWord w with
    | error e => rw [decodeWord_error hd]
    | ok i =>
      exfalso
      obtain ⟨-, rfl⟩ := encodeOfDecode w i hd
      have hsys : ∀ nnn, i ≠ .sys nnn := by
        rintro nnn rfl
        exact h0 (by rw [encode, and_F000, opField_packA]; rfl)
      obtain ⟨row, hrow, hmatch⟩ := encode_matches_row hsys
      exact hnone row hrow hmatch

/-! ### The table of illegal words -/

/-- An answer of the decoder that makes a step of `w` raise DecodeError: a rejection, or SYS (R96, R97). -/
def RaisesDecodeError (w : Word) (d : Except Reject Instr) : Prop := d = .error (.illegal w) ∨ ∃ nnn, d = .ok (.sys nnn)

theorem raises_error (w : Word) : RaisesDecodeError w (.error (.illegal w)) := .inl rfl

theorem raises_sys (w : Word) (nnn : Addr) : RaisesDecodeError w (.ok (.sys nnn)) := .inr ⟨nnn, rfl⟩

theorem raises_ok_iff {w : Word} {i : Instr} : RaisesDecodeError w (.ok i) ↔ ∃ nnn, i = .sys nnn := by
  simp [RaisesDecodeError]

theorem decode0_raises_iff (w : Word) : RaisesDecodeError w (decode0 w) ↔ w.toNat ≠ 0x00E0 ∧ w.toNat ≠ 0x00EE := by
  unfold decode0
  split
  case isTrue h => simp [raises_ok_iff, h]
  case isFalse hcls =>
    split
    case isTrue h => simp [raises_ok_iff, h]
    case isFalse hret =>
      refine iff_of_true (raises_sys w _) ?_
      bv_omega

theorem decode8_raises_iff (w : Word) :
    RaisesDecodeError w (decode8 w) ↔ 8 ≤ w.toNat % 16 ∧ w.toNat % 16 ≠ 0xE := by
  rw [← subField_toNat]
  unfold decode8
  split
  case h_10 =>
    refine iff_of_true (raises_error w) ?_
    simp only [imp_false] at *
    bv_omega
  all_goals simp [raises_ok_iff, *]

theorem decodeE_raises_iff (w : Word) :
    RaisesDecodeError w (decodeE w) ↔ w.toNat % 256 ≠ 0x9E ∧ w.toNat % 256 ≠ 0xA1 := by
  rw [← kkField_toNat]
  unfold decodeE
  split
  case h_3 =>
    refine iff_of_true (raises_error w) ?_
    simp only [imp_false] at *
    bv_omega
  all_goals simp [raises_ok_iff, *]

theorem decodeF_raises_iff (w : Word) :
    RaisesDecodeError w (decodeF w) ↔
      w.toNat % 256 ≠ 0x07 ∧ w.toNat % 256 ≠ 0x0A ∧ w.toNat % 256 ≠ 0x15 ∧ w.toNat % 256 ≠ 0x18 ∧
      w.toNat % 256 ≠ 0x1E ∧ w.toNat % 256 ≠ 0x29 ∧ w.toNat % 256 ≠ 0x33 ∧ w.toNat % 256 ≠ 0x55 ∧
      w.toNat % 256 ≠ 0x65 := by
  rw [← kkField_toNat]
  unfold decodeF
  split
  case h_10 =>
    refine iff_of_true (raises_error w) ?_
    simp only [imp_false] at *
    bv_omega
  all_goals simp [raises_ok_iff, *]

/-- Settles O4: by the arms of the decoder, each with the nibbles its words have. -/
theorem illegalWordClasses : Obligations.IllegalWordClasses := by
  intro w op n kk
  change RaisesDecodeError w (decodeWord w) ↔ _
  subst op n kk
  rw [← opField_toNat]
  unfold decodeWord
  split
  case h_1 hop => simp [decode0_raises_iff, hop]
  case h_9 hop => simp [decode8_raises_iff, hop]
  case h_15 hop => simp [decodeE_raises_iff, hop]
  case h_16 =>
    have hop : opField w = 0xF := by
      simp only [imp_false] at *
      bv_omega
    simp [decodeF_raises_iff, hop]
  case h_6 hop | h_10 hop =>
    rw [← subField_toNat]
    split
    · simp [raises_ok_iff, *]
    · simp [raises_error, hop]
      bv_omega
  all_goals simp [raises_ok_iff, *]

/-- Settles O5: the decoder run on the nineteen words. -/
theorem sampleWordsDecode : Obligations.SampleWordsDecode := by
  unfold Obligations.SampleWordsDecode
  decide

end Sys2Proof

/-! PROOFS. Frames (spec/10_state.md, spec/20_memory.md rule R69) and PC (spec/40_cycle_and_flow.md rule R121), read
off the shapes of `Effect`. -/

namespace Sys2Proof.Machine

/-! ### Status -/

/-- An instruction that does not end the run leaves `status`; one that does changes nothing else, and is SYS, a CALL
with all sixteen slots in use, or a RET with none (R248). -/
theorem Effect.status_cases {s t : State} {i : Instr} (h : Effect s i t) :
    t.status = s.status ∨
    (∃ nnn, i = .sys nnn ∧ t = s.raise (.decodeError (encode i))) ∨
    (∃ nnn, i = .call nnn ∧ s.sp.val = 16 ∧ t = s.raise (.stackOverflow s.pc)) ∨
    (i = .ret ∧ s.sp.val = 0 ∧ t = s.raise (.stackUnderflow s.pc)) := by
  cases h with
  | illegal nnn => exact .inr (.inl ⟨nnn, rfl, rfl⟩)
  | call nnn =>
    by_cases hfree : s.sp.val < 16
    · exact .inl (by rw [State.pushJump_of_lt s _ hfree])
    · have hfull : s.sp.val = 16 := by omega
      exact .inr (.inr (.inl ⟨nnn, rfl, hfull, State.pushJump_full s _ hfull⟩))
  | ret =>
    by_cases hempty : s.sp.val = 0
    · exact .inr (.inr (.inr ⟨rfl, hempty, State.popReturn_empty s hempty⟩))
    · exact .inl (by rw [State.popReturn_of_pos s hempty])
  | nop | clear | jump | jumpV0 | register | flagged | random | draw | wait | scan | delay | sound | index | addIndex
  | glyph => exact .inl rfl
  | skip | digits | store | load => exact .inl (by simp)

/-- A fault entered by an instruction is precise (R248). -/
theorem Effect.status_or_raise {s t : State} {i : Instr} (h : Effect s i t) :
    t.status = s.status ∨ ∃ e, t = s.raise e := by
  rcases h.status_cases with h | ⟨_, _, ht⟩ | ⟨_, _, _, ht⟩ | ⟨_, _, ht⟩
  · exact .inl h
  all_goals exact .inr ⟨_, ht⟩

/-! ### Memory and registers -/

/-- Settles O43: every shape but those of LD B,Vx and LD [I],Vx keeps the memory and the font under it. -/
theorem memoryFrame : Obligations.MemoryFrame := by
  intro i s t hi hexec a
  cases exec_effect hexec with
  | digits x => exact absurd rfl (hi x).1
  | store x => exact absurd rfl (hi x).2
  | illegal | nop | clear | jump | jumpV0 | register | flagged | random | draw | wait | scan | delay | sound | index
  | addIndex | glyph => rfl
  | ret | call | skip | load => exact State.readByte_congr (by simp) (by simp) a

/-- Settles O44: the next state of each of the two is the block write and the advance of PC. -/
theorem storeFrame : Obligations.StoreFrame := by
  intro x s t
  refine ⟨fun hexec a ha => ?_, fun hexec a ha => ?_⟩
  · rw [exec_ldB] at hexec
    cases State.withAddress_next hexec
    exact (s.readByte_writeBytes (s.atI 0) (bcdDigits (s.getV x)) (by simp [bcdDigits]) a).2 fun k hk => ha k hk
  · rw [exec_storeRegs] at hexec
    cases State.withAddress_next hexec
    exact (s.readByte_storeRegs (s.atI 0) (x.val + 1) x.isLt a).2 fun k hk => ha k (Nat.le_of_lt_succ hk)

/-- Settles O45: a shape writes the registers of `writesV` only. -/
theorem registerFrame : Obligations.RegisterFrame := by
  intro i s t hexec r hr
  cases exec_effect hexec with
  | illegal | nop | clear | jump | jumpV0 | wait | delay | sound | index | glyph => rfl
  | ret | call | skip | digits | store => exact State.getV_congr (by simp) r
  | register _ x b hi =>
    have hrx : r ≠ x := by simpa [hi] using hr
    simp [hrx]
  | flagged _ x v hi hv =>
    obtain ⟨hrx, hrf⟩ : r ≠ x ∧ r ≠ VF := by simpa [hi] using hr
    exact hv r hrx hrf
  | random x | scan x =>
    have hrx : r ≠ x := by simpa [writesV] using hr
    rw [State.getV_next, State.getV_setV, if_neg hrx]
    rfl
  | draw x y n =>
    have hrf : r ≠ VF := by simpa [writesV] using hr
    rw [State.getV_next, State.drawSprite, State.getV_setV, if_neg hrf]
    rfl
  | addIndex x =>
    have hrf : r ≠ VF := by simpa [writesV] using hr
    rw [State.getV_next, State.getV_setV, if_neg hrf]
    rfl
  | load x =>
    have hrx : ¬ r.val < x.val + 1 := by
      have hgt : ¬ r ≤ x := by simpa only [writesV, decide_eq_false_iff_not] using hr
      simpa [Nat.lt_succ_iff] using hgt
    rw [State.getV_next, State.getV_loadRegs s _ _ x.isLt r, if_neg hrx]

/-! ### The other elements -/

/-- No instruction writes the parameters, the keys or sound_pending (R31, R34, R38). -/
theorem Effect.surroundings_eq {s t : State} {i : Instr} (h : Effect s i t) :
    t.cfg = s.cfg ∧ t.key = s.key ∧ t.soundPending = s.soundPending := by
  cases h <;> simp

theorem Effect.i_eq {s t : State} {i : Instr} (h : Effect s i t) (hldI : ∀ nnn, i ≠ .ldI nnn)
    (hsum : ∀ x, i ≠ .addI x ∧ i ≠ .ldF x) : t.i = s.i := by
  cases h with
  | index nnn => exact absurd rfl (hldI nnn)
  | addIndex x => exact absurd rfl (hsum x).1
  | glyph x => exact absurd rfl (hsum x).2
  | _ => simp

theorem Effect.stack_eq {s t : State} {i : Instr} (h : Effect s i t) (hcall : ∀ nnn, i ≠ .call nnn) :
    t.stack = s.stack := by
  cases h with
  | call nnn => exact absurd rfl (hcall nnn)
  | _ => simp

theorem Effect.sp_eq {s t : State} {i : Instr} (h : Effect s i t) (hcall : ∀ nnn, i ≠ .call nnn) (hret : i ≠ .ret) :
    t.sp = s.sp := by
  cases h with
  | call nnn => exact absurd rfl (hcall nnn)
  | ret => exact absurd rfl hret
  | _ => simp

theorem Effect.dt_eq {s t : State} {i : Instr} (h : Effect s i t) (hdt : ∀ x, i ≠ .ldDtVx x) : t.dt = s.dt := by
  cases h with
  | delay x => exact absurd rfl (hdt x)
  | _ => simp

theorem Effect.st_eq {s t : State} {i : Instr} (h : Effect s i t) (hst : ∀ x, i ≠ .ldStVx x) : t.st = s.st := by
  cases h with
  | sound x => exact absurd rfl (hst x)
  | _ => simp

theorem Effect.display_eq {s t : State} {i : Instr} (h : Effect s i t) (hcls : i ≠ .cls)
    (hdrw : ∀ x y n, i ≠ .drw x y n) : t.fb = s.fb ∧ t.redrawPending = s.redrawPending := by
  cases h with
  | clear => exact absurd rfl hcls
  | draw x y n => exact absurd rfl (hdrw x y n)
  | _ => simp

theorem Effect.rnd_eq {s t : State} {i : Instr} (h : Effect s i t) (hrnd : ∀ x kk, i ≠ .rnd x kk) : t.rnd = s.rnd := by
  cases h with
  | random x kk => exact absurd rfl (hrnd x kk)
  | _ => simp

theorem Effect.keyScans_eq {s t : State} {i : Instr} (h : Effect s i t) (hk : ∀ x, i ≠ .ldVxK x) :
    t.keyScans = s.keyScans := by
  cases h with
  | scan x => exact absurd rfl (hk x)
  | _ => simp

theorem Effect.status_eq {s t : State} {i : Instr} (h : Effect s i t) (hi : ∀ nnn, i ≠ .sys nnn ∧ i ≠ .call nnn)
    (hret : i ≠ .ret) : t.status = s.status := by
  rcases h.status_cases with h | ⟨nnn, hsys, -⟩ | ⟨nnn, hcall, -⟩ | ⟨h, -⟩
  · exact h
  · exact absurd hsys (hi nnn).1
  · exact absurd hcall (hi nnn).2
  · exact absurd h hret

/-- Settles O46: element by element. -/
theorem specialStateFrame : Obligations.SpecialStateFrame := by
  intro i s t hexec
  have h := exec_effect hexec
  obtain ⟨hcfg, hkey, hsound⟩ := h.surroundings_eq
  exact ⟨hcfg, hkey, hsound, h.i_eq, h.stack_eq, h.sp_eq, h.dt_eq, h.st_eq, h.display_eq, h.rnd_eq, h.keyScans_eq,
    h.status_eq, h.status_or_raise⟩

/-! ### PC -/

theorem State.jumpTarget_toNat (s : State) (nnn : Addr) :
    (s.jumpTarget nnn).toNat = nnn.toNat + (s.getV 0).toNat := by
  have hle := addr_add_byte_le nnn (s.getV 0)
  rw [State.jumpTarget_eq_ofNat, BitVec.toNat_ofNat, Nat.mod_eq_of_lt (by omega)]

/-- The keys are all up when the scan finds none pressed (R222). -/
theorem State.keyDown_of_pressedKeys_nil {s : State} (h : s.pressedKeys = []) (k : Nat) : s.keyDown k = false := by
  by_cases hk : k < 16
  · have hnot : (⟨k, hk⟩ : Reg) ∉ s.pressedKeys := by rw [h]; exact List.not_mem_nil
    rw [State.mem_pressedKeys] at hnot
    simpa using hnot
  · simp [State.keyDown, hk]

/-- A fault leaves PC where it was (R248). -/
theorem pc_eq_and_fault_of_raise {i : Instr} {s t : State} {e : FatalError} (ht : t = s.raise e) :
    t.pc = s.pc ∧ ((∃ x, i = .ldVxK x) ∧ (∀ k, s.keyDown k = false) ∨ ∃ e, t.status = .fault e) := by
  rw [ht]
  exact ⟨rfl, .inr ⟨e, rfl⟩⟩

/-- Settles O10: by the shape of the next state, a CALL on a full and a RET on an empty stack apart. -/
theorem pcAdvance : Obligations.PcAdvance := by
  intro i s t hexec
  cases exec_effect hexec with
  | illegal => exact .inr (.inr (.inr (.inr (.inr (pc_eq_and_fault_of_raise rfl)))))
  | skip _ c hi =>
    cases c with
    | true => exact .inr (.inl ⟨rfl, hi⟩)
    | false => exact .inl rfl
  | jump nnn => exact .inr (.inr (.inl ⟨nnn, .inl rfl, addrWord_toNat nnn⟩))
  | call nnn =>
    by_cases hfree : s.sp.val < 16
    · rw [State.pushJump_of_lt s _ hfree]
      exact .inr (.inr (.inl ⟨nnn, .inr rfl, addrWord_toNat nnn⟩))
    · have hfull : s.sp.val = 16 := by omega
      exact .inr (.inr (.inr (.inr (.inr (pc_eq_and_fault_of_raise (s.pushJump_full _ hfull))))))
  | jumpV0 nnn => exact .inr (.inr (.inr (.inl ⟨nnn, rfl, s.jumpTarget_toNat nnn⟩)))
  | ret =>
    by_cases hempty : s.sp.val = 0
    · exact .inr (.inr (.inr (.inr (.inr (pc_eq_and_fault_of_raise (s.popReturn_empty hempty))))))
    · rw [State.popReturn_of_pos s hempty]
      exact .inr (.inr (.inr (.inr (.inl ⟨rfl, by omega, rfl⟩))))
  | wait x hnone =>
    exact .inr (.inr (.inr (.inr (.inr ⟨rfl, .inl ⟨⟨x, rfl⟩, State.keyDown_of_pressedKeys_nil hnone⟩⟩))))
  | nop | clear | register | flagged | random | draw | scan | delay | sound | index | addIndex | glyph => exact .inl rfl
  | digits | store | load => exact .inl (by simp)

end Sys2Proof.Machine

/-! PROOFS. The cycle and control transfer (spec/40_cycle_and_flow.md rules R120 to R126) and the faults
(spec/60_exceptions.md rules R240 to R248). -/

namespace Sys2Proof.Machine

/-! ### The cycle -/

/-- A word the decoder accepts is executed and the cycle ended (R120). -/
theorem runWord_of_decodeWord_ok {w : Word} {i : Instr} (s : State) (h : decodeWord w = .ok i) :
    runWord s w = endOfCycle (exec i s) := by
  rw [runWord, h]

/-- A running machine whose fetch is in range executes the instruction at PC. -/
theorem step_of_decodeWord_ok {s : State} {i : Instr} (hrunning : s.status = .running)
    (hinRange : s.cfg.addrOorPolicy = .wrap ∨ s.pc.toNat + 1 ≤ 0x0FFF) (hi : decodeWord s.opcodeAtPc = .ok i) :
    step s = endOfCycle (exec i s) := by
  rw [step_running s hrunning hinRange, runWord_of_decodeWord_ok s hi]

theorem State.endCycle_of_running {s : State} (h : s.status = .running) : s.endCycle = s.tick := if_pos h

theorem State.endCycle_of_not_running {s : State} (h : s.status ≠ .running) : s.endCycle = s := if_neg h

/-- A pair of bytes decodes to what its word decodes to (R66). -/
theorem decodeWord_of_decode_pair {hi lo : Byte} {i : Instr} {rest : List Byte} (h : decode [hi, lo] = .ok (i, rest)) :
    decodeWord (wordOfBytes hi lo) = .ok i := by
  cases hd : decodeWord (wordOfBytes hi lo) with
  | ok j => rw [decode, hd] at h; cases h; rfl
  | error e => rw [decode, hd] at h; cases h

/-- Settles O6: the two bytes are the fetched word. -/
theorem stepRunsDecodedInstruction : Obligations.StepRunsDecodedInstruction := by
  intro s i rest hrunning hinRange hdecode
  have hstep := step_of_decodeWord_ok hrunning hinRange (decodeWord_of_decode_pair hdecode)
  refine ⟨fun t h => ?_, fun r h => ?_, fun r h => ?_⟩ <;> rw [hstep, h] <;> rfl

/-- Settles O8: by the two statuses other than Running. -/
theorem stepRefusedUnlessRunning : Obligations.StepRefusedUnlessRunning := by
  intro s hs
  unfold step
  split
  case h_1 hrunning => exact absurd hrunning hs
  case h_2 hunloaded => rw [hunloaded]
  case h_3 hfault => rw [hfault]

/-- Settles O9: each of the five is an access under the address policy. -/
theorem addressPolicyFaults : Obligations.AddressPolicyFaults := by
  intro s x y n hpolicy
  refine ⟨fun hrunning hfar => ?_, fun hfar => ?_, fun hfar => ?_, fun hfar => ?_, fun hn hfar => ?_⟩
  · rw [step, hrunning]
    exact s.withAddress_fault _ _ hpolicy hfar
  · exact (exec_ldB x s).trans (s.withAddress_fault _ _ hpolicy hfar)
  · exact (exec_storeRegs x s).trans (s.withAddress_fault _ _ hpolicy hfar)
  · exact (exec_loadRegs x s).trans (s.withAddress_fault _ _ hpolicy hfar)
  · rw [exec_drw, if_neg (Nat.ne_of_gt hn)]
    exact s.withAddress_fault _ _ hpolicy hfar

/-! ### SYS, RET and CALL -/

theorem encode_sys_toNat (nnn : Addr) : (encode (.sys nnn)).toNat = nnn.toNat := by
  rw [encode, packA_toNat]
  simp

/-- Settles O11: SYS by its policy. -/
theorem sysRaisesDecodeError : Obligations.SysRaisesDecodeError := by
  intro nnn s
  exact ⟨fun hfault => ⟨encode (.sys nnn), encode_sys_toNat nnn, exec_sys_fault nnn hfault⟩,
    fun hnop => exec_sys_nop nnn hnop⟩

/-- Settles O12: a RET with a slot in use pops it. -/
theorem retPopsCallStack : Obligations.RetPopsCallStack := by
  intro s k hk
  have hused : s.sp.val ≠ 0 := by omega
  rw [exec_ret, State.popReturn_of_pos s hused]
  simp [hk]

/-- Settles O13: a CALL with a slot free pushes PC. -/
theorem callPushesItsAddress : Obligations.CallPushesItsAddress := by
  intro nnn s k hk
  have hfree : s.sp.val < 16 := hk ▸ k.isLt
  rw [exec_call, State.pushJump_of_lt s _ hfree, addrWord_eq_ofNat]
  simp [hk]

/-- Settles O14: the RET pops the slot the CALL wrote, which no live slot is. -/
theorem callThenRetResumesAfterCall : Obligations.CallThenRetResumesAfterCall := by
  intro nnn s t u hfree hcall hret
  rw [callPushesItsAddress nnn s ⟨s.sp.val, hfree⟩ rfl] at hcall
  cases hcall
  rw [retPopsCallStack _ ⟨s.sp.val, hfree⟩ rfl] at hret
  cases hret
  refine ⟨?_, rfl, fun k hk => ?_, rfl⟩
  · exact congrArg (· + 2) (Vector.getElem_set_self hfree)
  · exact Vector.getElem_set_ne hfree k.isLt (Nat.ne_of_gt hk)

/-- Settles O15: the two executions on a full and an empty stack, and the cycle that runs them, which does not tick. -/
theorem stackFaults : Obligations.StackFaults := by
  intro s nnn
  have hcall (hfull : s.sp.val = 16) : exec (.call nnn) s = .next (s.raise (.stackOverflow s.pc)) := by
    rw [exec_call, State.pushJump_full s _ hfull]
  have hret (hempty : s.sp.val = 0) : exec .ret s = .next (s.raise (.stackUnderflow s.pc)) := by
    rw [exec_ret, State.popReturn_empty s hempty]
  refine ⟨hcall, hret, fun hrunning hinRange => ⟨fun hfull hi => ?_, fun hempty hi => ?_⟩⟩
  · rw [step_of_decodeWord_ok hrunning hinRange hi, hcall hfull]
    rfl
  · rw [step_of_decodeWord_ok hrunning hinRange hi, hret hempty]
    rfl

/-! ### Faults over a whole step -/

theorem exec_skp_of_index {s : State} {x : Reg} (h : s.cfg.keyIndexMode = .mask4 ∨ (s.getV x).toNat ≤ 15) :
    exec (.skp x) s = .next (s.skipIf (s.keyDown ((s.getV x).toNat % 16))) :=
  (exec_skp x s).trans (s.withKey_go _ _ h)

theorem exec_sknp_of_index {s : State} {x : Reg} (h : s.cfg.keyIndexMode = .mask4 ∨ (s.getV x).toNat ≤ 15) :
    exec (.sknp x) s = .next (s.skipIf (!s.keyDown ((s.getV x).toNat % 16))) :=
  (exec_sknp x s).trans (s.withKey_go _ _ h)

/-- Where no policy stops it, every instruction answers a next state. -/
theorem exec_taken_next {s : State} (hcfg : s.cfg = Config.taken) (i : Instr) : ∃ t, exec i s = .next t := by
  have haddr : s.cfg.addrOorPolicy = .wrap := by rw [hcfg]; rfl
  have hkey : s.cfg.keyIndexMode = .mask4 := by rw [hcfg]; rfl
  have hvf : s.cfg.vfDestOrder = .flagLast := by rw [hcfg]; rfl
  cases i with
  | sys nnn => exact ⟨_, exec_sys_fault nnn (by rw [hcfg]; rfl)⟩
  | addReg | subReg | shr | subn | shl => exact ⟨_, s.writeFlagged_last _ _ (.inl hvf)⟩
  | drw | ldB | storeRegs | loadRegs => exact ⟨_, s.withAddress_go _ _ (.inl haddr)⟩
  | skp => exact ⟨_, exec_skp_of_index (.inl hkey)⟩
  | sknp => exact ⟨_, exec_sknp_of_index (.inl hkey)⟩
  | ldVxK x =>
    cases hk : s.pressedKeys with
    | nil => exact ⟨_, exec_ldVxK_wait x hk⟩
    | cons k ks => exact ⟨_, exec_ldVxK_scan x hk⟩
  | cls | ret | jp | call | seByte | sneByte | seReg | ldByte | addByte | ldReg | orReg | andReg | xorReg | sneReg
  | ldI | jpV0 | rnd | ldVxDt | ldDtVx | ldStVx | addI | ldF => exact ⟨_, rfl⟩

/-- Settles O47: the word at PC is rejected, or its instruction answers a next state whose `status` is one of four. -/
theorem onlyThreeFaults : Obligations.OnlyThreeFaults := by
  intro s hcfg hrunning
  have hinRange : s.cfg.addrOorPolicy = .wrap ∨ s.pc.toNat + 1 ≤ 0x0FFF := .inl (by rw [hcfg]; rfl)
  cases hd : decodeWord s.opcodeAtPc with
  | error e =>
    rw [step_running s hrunning hinRange, runWord_of_decodeWord_error s hd, decodeWord_error hd]
    exact ⟨_, rfl, .inr (.inl ⟨rfl, .inl rfl⟩)⟩
  | ok i =>
    obtain ⟨t, ht⟩ := exec_taken_next hcfg i
    rw [step_of_decodeWord_ok hrunning hinRange hd, ht]
    refine ⟨t.endCycle, rfl, ?_⟩
    rw [State.endCycle_status]
    rcases (exec_effect ht).status_cases with h | ⟨nnn, rfl, rfl⟩ | ⟨nnn, rfl, hfull, rfl⟩ | ⟨rfl, hempty, rfl⟩
    · exact .inl (h.trans hrunning)
    · rw [(encodeOfDecode _ _ hd).2]
      exact .inr (.inl ⟨rfl, .inr ⟨nnn, rfl⟩⟩)
    · exact .inr (.inr (.inl ⟨rfl, hfull, nnn, rfl⟩))
    · exact .inr (.inr (.inr ⟨rfl, hempty, rfl⟩))

/-- Settles O48: both ways a step can end in a fault enter it with `raise`, and no tick follows. -/
theorem faultsArePrecise : Obligations.FaultsArePrecise := by
  intro s t e hstep hfault
  have hraise : ∃ e', t = s.raise e' := by
    obtain ⟨hrunning, ⟨i, u, -, hexec, rfl⟩ | ⟨-, -, rfl⟩⟩ := step_cases hstep
    · rw [State.endCycle_status] at hfault
      have hstopped : u.status ≠ .running := by rw [hfault]; exact Status.noConfusion
      rw [State.endCycle_of_not_running hstopped]
      exact (exec_effect hexec).status_or_raise.resolve_left fun h => hstopped (h.trans hrunning)
    · exact ⟨_, rfl⟩
  obtain ⟨e', rfl⟩ := hraise
  cases hfault
  exact ⟨rfl, stepRefusedUnlessRunning _ Status.noConfusion⟩

end Sys2Proof.Machine

/-! PROOFS. The rest of the ALU (spec/41_alu.md rules R150, R154 to R162): reverse subtraction, shifts, the logic
operations, the two other orders of writing VF, the random byte. -/

namespace Sys2Proof.Machine

/-! ### The operand of a shift -/

theorem State.shiftOperand_vx {s : State} (h : s.cfg.shiftSource = .vx) (x y : Reg) :
    s.shiftOperand x y = s.getV x := by
  rw [State.shiftOperand, h]

theorem State.shiftOperand_vy {s : State} (h : s.cfg.shiftSource = .vy) (x y : Reg) :
    s.shiftOperand x y = s.getV y := by
  rw [State.shiftOperand, h]

/-- The operand as a number, by SHIFT_SOURCE (D6). -/
theorem State.shiftOperand_toNat (s : State) (x y : Reg) :
    (s.shiftOperand x y).toNat =
      match s.cfg.shiftSource with
      | .vx => (s.getV x).toNat
      | .vy => (s.getV y).toNat := by
  cases h : s.cfg.shiftSource with
  | vx => rw [State.shiftOperand_vx h]
  | vy => rw [State.shiftOperand_vy h]

/-- SHR is a flagged write of half its operand and the bit shifted out (R159). -/
theorem shr_writes {x y : Reg} {s : State} {a : Byte} (horder : s.cfg.vfDestOrder = .flagLast ∨ x ≠ VF)
    (ha : s.shiftOperand x y = a) : WritesResultThenFlag (.shr x y) x s (a.toNat / 2) (a.toNat % 2) :=
  writesResultThenFlag_of_exec_eq horder (ha ▸ exec_shr x y s) (shrFlagged_toNat a) (shrFlag_toNat a)

/-- SHL is a flagged write of twice its operand and the bit shifted out (R161). -/
theorem shl_writes {x y : Reg} {s : State} {a : Byte} (horder : s.cfg.vfDestOrder = .flagLast ∨ x ≠ VF)
    (ha : s.shiftOperand x y = a) : WritesResultThenFlag (.shl x y) x s (2 * a.toNat % 256) (a.toNat / 128) :=
  writesResultThenFlag_of_exec_eq horder (ha ▸ exec_shl x y s) (shlFlagged_toNat a) (shlFlag_toNat a)

/-! ### VF as destination in the orders not taken -/

/-- With the flag first, the result overwrites it in VF (R150). -/
theorem State.writeFlagged_first_VF {s : State} (h : s.cfg.vfDestOrder = .flagFirst) (r : Flagged) :
    s.writeFlagged VF r = .next { s with v := s.v.set 15 r.1, pc := s.pc + 2 } := by
  rw [State.writeFlagged, h]
  simp [State.setV, State.next]

theorem State.writeFlagged_refuse_VF {s : State} (h : s.cfg.vfDestOrder = .refuse) (r : Flagged) :
    s.writeFlagged VF r = .refused .vfAsDestination := by
  rw [State.writeFlagged, h]
  exact if_pos rfl

/-! ### The obligations -/

/-- Settles O22: a flagged write of the difference with the operands exchanged. -/
theorem subnBorrowLaw : Obligations.SubnBorrowLaw := by
  intro x y s horder
  exact writesResultThenFlag_of_exec_eq horder (exec_subn x y s)
    (subFlagged_toNat_eq_ite (s.getV y) (s.getV x)) (subFlag_toNat (s.getV y) (s.getV x))

/-- Settles O23: the two shifts of whichever operand SHIFT_SOURCE names. -/
theorem shiftLaw : Obligations.ShiftLaw := by
  intro x y s horder
  refine ⟨fun hvx => ?_, fun hvy => ?_⟩
  · have ha := State.shiftOperand_vx hvx x y
    exact ⟨shr_writes horder ha, shl_writes horder ha⟩
  · have hb := State.shiftOperand_vy hvy x y
    exact ⟨shr_writes horder hb, shl_writes horder hb⟩

/-- Settles O19: the three are one register write each, of a byte given bit by bit. -/
theorem logicBitwise : Obligations.LogicBitwise := by
  intro x y s
  refine ⟨s.getV x ||| s.getV y, s.getV x &&& s.getV y, s.getV x ^^^ s.getV y, exec_orReg x y s, exec_andReg x y s,
    exec_xorReg x y s, fun k _ => ?_⟩
  exact ⟨BitVec.getLsbD_or, BitVec.getLsbD_and, BitVec.getLsbD_xor⟩

/-- Settles O24: each of the five forms is one flagged write with destination VF. -/
theorem vfDestinationOrders : Obligations.VfDestinationOrders := by
  intro y s
  refine ⟨fun hfirst => ?_, fun hrefuse => ?_⟩
  · have hwrite := State.writeFlagged_first_VF hfirst
    have hshr := shrFlagged_toNat (s.shiftOperand VF y)
    have hshl := shlFlagged_toNat (s.shiftOperand VF y)
    rw [State.shiftOperand_toNat] at hshr hshl
    exact ⟨_, _, _, _, _, addFlagged_toNat (s.getV VF) (s.getV y), subFlagged_toNat (s.getV VF) (s.getV y), hshr,
      subFlagged_toNat (s.getV y) (s.getV VF), hshl, hwrite _, hwrite _, hwrite _, hwrite _, hwrite _⟩
  · have hstop := State.writeFlagged_refuse_VF hrefuse
    exact ⟨hstop _, hstop _, hstop _, hstop _, hstop _⟩

/-- Settles O25: by whether a byte is supplied. -/
theorem rndDrawsOneByte : Obligations.RndDrawsOneByte := by
  intro x kk s
  refine ⟨s.rnd.draw.1, fun b rest hsupplied => ?_, ?_⟩
  · rw [RandomSource.draw, hsupplied]
  · have hdraw : s.rnd.draw.2 = { supplied := s.rnd.supplied.tail, drawn := s.rnd.drawn + 1 } := by
      unfold RandomSource.draw
      split <;> simp [*]
    rw [exec_rnd, hdraw]
    rfl

end Sys2Proof.Machine

/-! PROOFS. The index register and memory (spec/42_index_memory.md rules R181 to R185, spec/20_memory.md rules R65 to
R75): ADD I, the block stores and the block load, a store read back. -/

namespace Sys2Proof.Machine

/-! ### ADD I,Vx -/

/-- The sum as it is stored, as a number, by I_STORE_MASK (R181, D4). -/
theorem State.storedI_toNat (s : State) (sum : Nat) :
    (s.storedI sum).toNat =
      match s.cfg.iStoreMask with
      | .full => sum % 65536
      | .low12 => sum % 4096 := by
  cases hmask : s.cfg.iStoreMask with
  | full => rw [State.storedI, hmask, BitVec.toNat_ofNat]
  | low12 =>
    rw [State.storedI, hmask, BitVec.toNat_ofNat]
    exact Nat.mod_eq_of_lt (by omega)

theorem overflowFlag_toNat (sum : Nat) : (flagByte (overflow12 sum)).toNat = if sum > 0x0FFF then 1 else 0 := by
  simp only [flagByte_toNat, overflow12, decide_eq_true_eq, gt_iff_lt]

/-- Settles O27: the sum stored and the overflow of the sum as it was before the store. -/
theorem addIndexOverflowLaw : Obligations.AddIndexOverflowLaw := by
  intro x s
  exact ⟨s.storedI (s.indexSum x), flagByte (overflow12 (s.indexSum x)), s.storedI_toNat (s.indexSum x),
    overflowFlag_toNat (s.indexSum x), exec_addI x s⟩

/-! ### Reads and writes by effective address -/

/-- A read depends on the effective address only (R65). -/
theorem State.readByte_effective (s : State) (a : Nat) : s.readByte (effective a) = s.readByte a := by
  simp only [State.readByte, effective_effective]

/-- An address in the space is its own effective address. -/
theorem effective_of_lt {a : Nat} (h : a < 4096) : effective a = a := Nat.mod_eq_of_lt h

/-- Settles O32: the read-after-write law, with the reduction written out. -/
theorem memoryReadWrite : Obligations.MemoryReadWrite := by
  intro s a c b
  exact ⟨s.readByte_writeByte a c b, (s.readByte_effective c).symm, rfl⟩

/-- An address below 4096 that is none of `(base + k) mod 4096` for `k` below `n` is outside a block of `n` bytes. -/
theorem effective_ne_of_lt {a base n : Nat} (ha : a < 4096) (h : ∀ k, k < n → a ≠ (base + k) % 4096) :
    ∀ k, k < n → effective a ≠ effective (base + k) := by
  intro k hk
  rw [effective_of_lt ha]
  exact h k hk

/-! ### LD B,Vx -/

theorem hundreds_toNat (b : Byte) : (BitVec.ofNat 8 (b.toNat / 100)).toNat = b.toNat / 100 := by
  have := b.isLt
  rw [BitVec.toNat_ofNat, Nat.mod_eq_of_lt (by omega)]

theorem tens_toNat (b : Byte) : (BitVec.ofNat 8 (b.toNat / 10 % 10)).toNat = b.toNat / 10 % 10 := by
  rw [BitVec.toNat_ofNat, Nat.mod_eq_of_lt (by omega)]

theorem ones_toNat (b : Byte) : (BitVec.ofNat 8 (b.toNat % 10)).toNat = b.toNat % 10 := by
  rw [BitVec.toNat_ofNat, Nat.mod_eq_of_lt (by omega)]

/-- Settles O28: a block write of the three digits. -/
theorem bcdStoresDigits : Obligations.BcdStoresDigits := by
  intro x s hinRange
  have hexec := (exec_ldB x s).trans (s.withAddress_go _ _ hinRange)
  have hblock := s.readByte_writeBytes (s.atI 0) (bcdDigits (s.getV x)) (by simp [bcdDigits])
  have hdigit (k : Nat) (hk : k < 3) :
      ((s.writeBytes (s.atI 0) (bcdDigits (s.getV x))).next).readByte ((s.i.toNat + k) % 4096) =
        (bcdDigits (s.getV x))[k] :=
    (hblock _).1 k hk (effective_effective _)
  refine ⟨_, hexec, ?_, ?_, ?_, fun a ha hne => ?_, ?_⟩
  · rw [hdigit 0 (by decide)]
    exact hundreds_toNat _
  · rw [hdigit 1 (by decide)]
    exact tens_toNat _
  · rw [hdigit 2 (by decide)]
    exact ones_toNat _
  · exact (hblock a).2 (effective_ne_of_lt ha hne)
  · rw [State.next, State.writeBytes_eq]

/-! ### LD [I],Vx and LD Vx,[I] -/

theorem exec_storeRegs_inRange {x : Reg} {s : State} (h : s.cfg.addrOorPolicy = .wrap ∨ s.i.toNat + x.val ≤ 0x0FFF) :
    exec (.storeRegs x) s = .next (s.storeRegs (s.atI 0) (x.val + 1)).next :=
  (exec_storeRegs x s).trans (s.withAddress_go _ _ h)

/-- A block store that answers a next state is the block write and the advance of PC. -/
theorem exec_storeRegs_next {x : Reg} {s t : State} (h : exec (.storeRegs x) s = .next t) :
    t = (s.storeRegs (s.atI 0) (x.val + 1)).next :=
  (Host.Outcome.next.inj (State.withAddress_next h)).symm

/-- The byte it leaves at `I + k` (R184). -/
theorem readByte_of_exec_storeRegs {x : Reg} {s t : State} (h : exec (.storeRegs x) s = .next t) (k : Reg)
    (hk : k.val ≤ x.val) : t.readByte (s.atI k.val) = s.getV k := by
  rw [exec_storeRegs_next h]
  exact (s.readByte_storeRegs (s.atI 0) (x.val + 1) x.isLt _).1 k.val (Nat.lt_succ_of_le hk) rfl

/-- Settles O29: the block store of V0 to Vx, inside and outside its bytes. -/
theorem blockStore : Obligations.BlockStore := by
  intro x s hinRange
  have hblock := s.readByte_storeRegs (s.atI 0) (x.val + 1) x.isLt
  refine ⟨_, exec_storeRegs_inRange hinRange, fun k hk => ?_, fun a ha hne => ?_, ?_⟩
  · exact (hblock _).1 k.val (Nat.lt_succ_of_le hk) (effective_effective _)
  · exact (hblock a).2 (effective_ne_of_lt ha fun k hk => hne k (Nat.le_of_lt_succ hk))
  · rw [State.next, State.storeRegs_eq]

/-- Settles O30: the block load, register by register. -/
theorem blockLoad : Obligations.BlockLoad := by
  intro x s hinRange
  refine ⟨_, (exec_loadRegs x s).trans (s.withAddress_go _ _ hinRange), fun k => ?_, ?_⟩
  · have hk := s.getV_loadRegs (s.atI 0) (x.val + 1) x.isLt k
    rw [← State.readByte_effective] at hk
    simp only [Nat.lt_succ_iff] at hk
    exact hk
  · rw [State.next, State.loadRegs_eq]

/-- Settles O31: the load reads back the bytes the store left at the same addresses. -/
theorem storeThenLoadRestoresRegisters : Obligations.StoreThenLoadRestoresRegisters := by
  intro x v s t u hstore hload k hk
  have hi : t.i = s.i := by
    rw [exec_storeRegs_next hstore]
    simp
  rw [exec_loadRegs] at hload
  cases State.withAddress_next hload
  calc (State.loadRegs { t with v := v } (t.atI 0) (x.val + 1)).getV k
      = t.readByte (t.atI k.val) :=
        (State.getV_loadRegs { t with v := v } (t.atI 0) (x.val + 1) x.isLt k).trans (if_pos (Nat.lt_succ_of_le hk))
    _ = t.readByte (s.atI k.val) := by rw [State.atI, hi, State.atI]
    _ = s.getV k := readByte_of_exec_storeRegs hstore k hk

/-- Settles O33: with I = PC + 2 the first two bytes stored are those at the PC the store leaves. -/
theorem storeSeenByNextFetch : Obligations.StoreSeenByNextFetch := by
  intro x s t hx hi hstore
  have hpc : t.pc = s.i := by
    rw [exec_storeRegs_next hstore]
    simp [hi]
  have hbyte := readByte_of_exec_storeRegs hstore
  rw [State.opcodeAtPc, hpc]
  exact congrArg₂ wordOfBytes (hbyte 0 (Nat.zero_le _)) (hbyte 1 hx)

end Sys2Proof.Machine

/-! PROOFS. The display (spec/43_display.md rules R201, R203; spec/60_exceptions.md rule R256): the 1 bits of a sprite
in memory, DRW once and twice, the snapshot. -/

namespace Sys2Proof.Machine

/-! ### The 1 bits of a sprite -/

/-- A sprite has a 1 bit for a pixel when a row r and a column c lead to the pixel and the bit (R201). -/
theorem spriteBit_iff (sprite : List Byte) (x0 y0 px py : Nat) :
    spriteBit sprite x0 y0 px py = true ↔
      ∃ r c, c < 8 ∧ px = x0 + c ∧ py = y0 + r ∧ ∃ b, sprite[r]? = some b ∧ b.getLsbD (7 - c) = true := by
  constructor
  · intro h
    simp only [spriteBit, Bool.and_eq_true, decide_eq_true_eq] at h
    obtain ⟨⟨hx, hx8, hy⟩, hbit⟩ := h
    refine ⟨py - y0, px - x0, by omega, by omega, by omega, ?_⟩
    cases hrow : sprite[py - y0]? with
    | none => rw [hrow] at hbit; cases hbit
    | some b => rw [hrow] at hbit; exact ⟨b, rfl, hbit⟩
  · rintro ⟨r, c, hc, rfl, rfl, b, hrow, hbit⟩
    simp [spriteBit, hrow, hbit, hc]

/-- The sprite of DRW, row by row: row r is the byte at I + r (R201). -/
theorem State.sprite_getElem? (s : State) (n r : Nat) :
    (s.sprite n)[r]? = if r < n then some (s.readByte (s.i.toNat + r)) else none := by
  by_cases hr : r < n <;> simp [State.sprite, State.readBytes, State.atI, hr]

/-- `SpriteBitAt` is the drawer's `spriteBit` on the sprite at I. -/
theorem spriteBitAt_iff (s : State) (x y : Reg) (n : Fin 16) (px py : Nat) :
    SpriteBitAt s x y n px py ↔
      spriteBit (s.sprite n.val) (s.getV x).toNat (s.getV y).toNat px py = true := by
  rw [spriteBit_iff]
  constructor
  · rintro ⟨r, c, hr, hc, hx, hy, hbit⟩
    refine ⟨r, c, hc, hx, hy, _, by rw [State.sprite_getElem?, if_pos hr], ?_⟩
    rw [← State.readByte_effective]
    exact hbit
  · rintro ⟨r, c, hc, hx, hy, b, hrow, hbit⟩
    rw [State.sprite_getElem?] at hrow
    split at hrow
    case isTrue hr =>
      cases hrow
      rw [← State.readByte_effective] at hbit
      exact ⟨r, c, hr, hc, hx, hy, hbit⟩
    case isFalse => cases hrow

/-! ### One DRW -/

theorem byte_xor_one_ne (b : Byte) : b ^^^ 1 ≠ b := by
  intro h
  have hbit := congrArg (fun c : Byte => c.getLsbD 0) h
  simp at hbit

theorem State.drawing_cell (s : State) (x y : Reg) (n : Fin 16) {px py : Nat} (hx : px < 64) (hy : py < 32)
    [Decidable (SpriteBitAt s x y n px py)] :
    (s.drawing x y n).1.cell px py =
      if SpriteBitAt s x y n px py then s.fb.cell px py ^^^ 1 else s.fb.cell px py := by
  rw [State.drawing, Framebuffer.draw_cell _ _ _ _ _ _ hx hy]
  simp only [spriteBitAt_iff]

theorem State.drawing_hit (s : State) (x y : Reg) (n : Fin 16) :
    (s.drawing x y n).2 = true ↔
      ∃ px py, px < 64 ∧ py < 32 ∧ SpriteBitAt s x y n px py ∧ s.fb.cell px py ≠ 0 := by
  simp only [spriteBitAt_iff]
  exact Framebuffer.draw_hit _ _ _ _

/-- A drawing changes the framebuffer exactly when the sprite has a 1 bit on the screen. -/
theorem State.drawing_ne_iff (s : State) (x y : Reg) (n : Fin 16) :
    (s.drawing x y n).1 ≠ s.fb ↔ ∃ px py, px < 64 ∧ py < 32 ∧ SpriteBitAt s x y n px py := by
  classical
  constructor
  · intro hne
    by_contra hnone
    refine hne (Framebuffer.ext_cell fun px py hx hy => ?_)
    rw [s.drawing_cell x y n hx hy, if_neg fun hbit => hnone ⟨px, py, hx, hy, hbit⟩]
  · rintro ⟨px, py, hx, hy, hbit⟩ heq
    have hcell := s.drawing_cell x y n hx hy
    rw [if_pos hbit, heq] at hcell
    exact byte_xor_one_ne _ hcell.symm

/-- A DRW whose sprite is in range for its policy draws it. -/
theorem exec_drw_inRange {x y : Reg} {n : Fin 16} {s : State}
    (h : s.cfg.addrOorPolicy = .wrap ∨ n.val = 0 ∨ s.i.toNat + (n.val - 1) ≤ 0x0FFF) :
    exec (.drw x y n) s = .next (s.drawSprite (s.drawing x y n)).next := by
  rw [exec_drw]
  refine s.withAddress_go _ _ (h.imp_right fun h => ?_)
  split
  case isTrue => exact Nat.zero_le _
  case isFalse hn => exact h.resolve_left hn

theorem flagByte_eq_one_iff {c : Bool} : flagByte c = 1 ↔ c = true := by
  cases c <;> decide

/-- VF after a DRW is the collision (R201). -/
theorem State.drawSprite_next_VF (s : State) (d : Drawing) : (s.drawSprite d).next.v[15] = flagByte d.2 :=
  Vector.getElem_set_self (by decide)

/-- Settles O35: the drawing gives cells and collision, the redraw policy the request. -/
theorem drawXorsAndDetectsCollision : Obligations.DrawXorsAndDetectsCollision := by
  classical
  intro x y n s hinRange
  have hVF := s.drawSprite_next_VF (s.drawing x y n)
  refine ⟨_, exec_drw_inRange hinRange, fun px py hx hy => ?_, fun hhit => ?_, fun hmiss => ?_, fun halways => ?_,
    fun honChange => ?_, ?_⟩
  · have hcell := s.drawing_cell x y n hx hy
    exact ⟨fun hbit => hcell.trans (if_pos hbit), fun hbit => hcell.trans (if_neg hbit)⟩
  · rw [hVF, (s.drawing_hit x y n).2 hhit]
    rfl
  · rw [hVF, Bool.eq_false_iff.2 (mt (s.drawing_hit x y n).1 hmiss)]
    rfl
  · rw [State.next_redrawPending, State.drawSprite_redrawPending, State.redrawAfter, halways]
  · rw [← State.drawing_ne_iff, State.next_redrawPending, State.drawSprite_redrawPending, State.redrawAfter, honChange]
    simp
  · rw [hVF]
    rfl

/-! ### Two DRW -/

/-- The second of two DRW with x, y ≠ F draws the same sprite at the same place, on what the first has left. -/
theorem State.drawing_of_drawn {s t : State} {x y : Reg} {n : Fin 16} {d : Drawing} (hx : x ≠ VF) (hy : y ≠ VF)
    (ht : t = (s.drawSprite d).next) :
    t.drawing x y n = d.1.draw (s.getV x).toNat (s.getV y).toNat (s.sprite n.val) := by
  have hvx : t.getV x = s.getV x := by rw [ht, State.getV_next, State.drawSprite, State.getV_setV, if_neg hx]; rfl
  have hvy : t.getV y = s.getV y := by rw [ht, State.getV_next, State.drawSprite, State.getV_setV, if_neg hy]; rfl
  rw [State.drawing, hvx, hvy, ht]
  rfl

/-- Drawing the same sprite at the same place twice restores every cell (R203). -/
theorem Framebuffer.draw_draw (fb : Framebuffer) (x0 y0 : Nat) (sprite : List Byte) :
    ((fb.draw x0 y0 sprite).1.draw x0 y0 sprite).1 = fb := by
  refine Framebuffer.ext_cell fun x y hx hy => ?_
  rw [Framebuffer.draw_cell _ _ _ _ _ _ hx hy, Framebuffer.draw_cell _ _ _ _ _ _ hx hy]
  split
  · rw [BitVec.xor_assoc, BitVec.xor_self, BitVec.xor_zero]
  · rfl

/-- On an empty background the first drawing hits nothing. -/
theorem Framebuffer.draw_hit_blank {fb : Framebuffer} (hblank : ∀ x y, fb.cell x y = 0) (x0 y0 : Nat)
    (sprite : List Byte) : (fb.draw x0 y0 sprite).2 = false := by
  rw [Bool.eq_false_iff]
  intro hhit
  obtain ⟨x, y, -, -, -, hlit⟩ := (Framebuffer.draw_hit ..).1 hhit
  exact hlit (hblank x y)

/-- On an empty background the second drawing hits every pixel the first has set (R203, log entry 12). -/
theorem Framebuffer.draw_draw_hit_blank {fb : Framebuffer} (hblank : ∀ x y, fb.cell x y = 0) (x0 y0 : Nat)
    (sprite : List Byte) :
    ((fb.draw x0 y0 sprite).1.draw x0 y0 sprite).2 = true ↔
      ∃ x y, x < 64 ∧ y < 32 ∧ spriteBit sprite x0 y0 x y = true := by
  rw [Framebuffer.draw_hit]
  constructor
  · rintro ⟨x, y, hx, hy, hbit, -⟩
    exact ⟨x, y, hx, hy, hbit⟩
  · rintro ⟨x, y, hx, hy, hbit⟩
    refine ⟨x, y, hx, hy, hbit, ?_⟩
    rw [Framebuffer.draw_cell _ _ _ _ _ _ hx hy, if_pos hbit, hblank]
    decide

/-- Settles O36: the second DRW is the second drawing of one sprite. -/
theorem drawTwiceRestores : Obligations.DrawTwiceRestores := by
  intro x y n s t u hx hy hfirst hsecond
  rw [exec_drw] at hfirst hsecond
  have ht := (Host.Outcome.next.inj (State.withAddress_next hfirst)).symm
  have hu := (Host.Outcome.next.inj (State.withAddress_next hsecond)).symm
  rw [State.drawing_of_drawn hx hy ht] at hu
  refine ⟨?_, fun hblank => ⟨?_, ?_⟩⟩
  · rw [hu]
    exact Framebuffer.draw_draw _ _ _ _
  · rw [ht, State.drawSprite_next_VF, State.drawing, Framebuffer.draw_hit_blank hblank]
    rfl
  · simp only [spriteBitAt_iff]
    rw [hu, State.drawSprite_next_VF, flagByte_eq_one_iff]
    exact Framebuffer.draw_draw_hit_blank hblank _ _ _

/-! ### The snapshot -/

/-- Rows of one length, joined: element `y * w + x` is element x of row y. -/
theorem getElem?_flatten_of_width {α : Type} {w : Nat} (rows : List (List α)) (hw : ∀ row ∈ rows, row.length = w)
    (x y : Nat) (hx : x < w) : rows.flatten[y * w + x]? = rows[y]?.bind (·[x]?) := by
  induction rows generalizing y with
  | nil => simp
  | cons row rest ih =>
    have hrow : row.length = w := hw row (by simp)
    cases y with
    | zero => simp [List.getElem?_append_left (hrow ▸ hx : x < row.length)]
    | succ y =>
      have ih := ih (fun r hr => hw r (by simp [hr])) y
      rw [List.flatten_cons, List.getElem?_append_right (by rw [hrow, Nat.succ_mul]; omega)]
      rw [show (y + 1) * w + x - row.length = y * w + x by rw [hrow, Nat.succ_mul]; omega, ih]
      rfl

theorem State.snapshot_rows_width (s : State) : ∀ row ∈ s.fb.toList.map Vector.toList, row.length = 64 := by
  simp

theorem State.framebufferSnapshot_length (s : State) : s.framebufferSnapshot.length = 2048 := by
  simp [State.framebufferSnapshot, List.length_flatten, Function.comp_def]

theorem State.framebufferSnapshot_getElem? (s : State) {x y : Nat} (hx : x < 64) (hy : y < 32) :
    s.framebufferSnapshot[y * 64 + x]? = some (s.fb.cell x y) := by
  rw [State.framebufferSnapshot, getElem?_flatten_of_width _ s.snapshot_rows_width x y hx]
  simp [Framebuffer.cell, hx, hy]

/-- Settles O53: rows of 64 cells joined, and the admission by `status`. -/
theorem snapshotIsRowMajor : Obligations.SnapshotIsRowMajor := by
  intro s
  exact ⟨s.framebufferSnapshot_length, fun x y => s.framebufferSnapshot_getElem?, fun hloaded => ⟨if_neg hloaded, rfl⟩,
    fun hunloaded => if_pos hunloaded⟩

end Sys2Proof.Machine

/-! PROOFS. Keys and timers (spec/44_input_timers.md rules R220 to R225, spec/60_exceptions.md rule R252), and the
idle state that only runs its timers down (spec/70_reset_and_hazards.md rule R300). -/

namespace Sys2Proof.Machine

/-! ### SKP and SKNP -/

theorem exec_key_out_of_range {x : Reg} {s : State} (h : s.cfg.keyIndexMode = .fault) (hbig : 15 < (s.getV x).toNat) :
    exec (.skp x) s = .fault (.keyIndexOutOfRange (s.getV x)) ∧
    exec (.sknp x) s = .fault (.keyIndexOutOfRange (s.getV x)) := by
  have hnot : ¬ (s.getV x).toNat < 16 := by omega
  simp [exec_skp, exec_sknp, State.withKey, h, hnot]

theorem exec_key_not_pressed {x : Reg} {s : State} (h : s.cfg.keyIndexMode = .notPressed)
    (hbig : 15 < (s.getV x).toNat) :
    exec (.skp x) s = .next (s.skipIf false) ∧ exec (.sknp x) s = .next (s.skipIf true) := by
  have hnot : ¬ (s.getV x).toNat < 16 := by omega
  simp [exec_skp, exec_sknp, State.withKey, h, hnot]

/-- Settles O37: a `skipIf` on the level of the key, up for SKNP, and the two other modes on a value above 15. -/
theorem keySkips : Obligations.KeySkips := by
  intro x s
  refine ⟨fun hindex => ⟨?_, ?_⟩, fun hmode hbig => ?_, exec_key_out_of_range⟩
  · rw [exec_skp_of_index hindex, State.skipIf_eq]
    rfl
  · rw [exec_sknp_of_index hindex, State.skipIf_eq, State.getV]
    cases s.keyDown (s.v[x.val].toNat % 16) <;> rfl
  · exact exec_key_not_pressed hmode hbig

/-! ### LD Vx,K -/

theorem State.pressedKeys_nil {s : State} (h : ∀ k, k < 16 → s.keyDown k = false) : s.pressedKeys = [] := by
  rw [List.eq_nil_iff_forall_not_mem]
  intro k hk
  rw [State.mem_pressedKeys, h k.val k.isLt] at hk
  cases hk

theorem State.lt_of_keyDown {s : State} {k : Nat} (h : s.keyDown k = true) : k < 16 := by
  by_contra hk
  simp [State.keyDown, hk] at h

theorem State.mem_pressedKeys_of_keyDown {s : State} {k : Nat} (h : s.keyDown k = true) :
    ⟨k, State.lt_of_keyDown h⟩ ∈ s.pressedKeys := (s.mem_pressedKeys _).2 h

theorem State.scanWinner_keyDown {s : State} {k : Reg} {ks : List Reg} (hk : s.pressedKeys = k :: ks) :
    s.keyDown (s.scanWinner k ks).val = true := by
  rw [← State.mem_pressedKeys, hk]
  exact s.scanWinner_mem k ks

/-- The pressed keys are listed upwards, so the first is the lowest (R222). -/
theorem State.scanWinner_lowest {s : State} {k : Reg} {ks : List Reg} (hk : s.pressedKeys = k :: ks)
    (hmode : s.cfg.keyScanWinner = .lowest) {l : Nat} (hl : s.keyDown l = true) : (s.scanWinner k ks).val ≤ l := by
  have hmem := State.mem_pressedKeys_of_keyDown hl
  have hsorted := s.pressedKeys_sorted.imp le_of_lt
  rw [hk] at hmem hsorted
  rw [State.scanWinner, hmode]
  exact hsorted.rel_head hmem

/-- The last of them is the highest. -/
theorem State.scanWinner_highest {s : State} {k : Reg} {ks : List Reg} (hk : s.pressedKeys = k :: ks)
    (hmode : s.cfg.keyScanWinner = .highest) {l : Nat} (hl : s.keyDown l = true) : l ≤ (s.scanWinner k ks).val := by
  have hmem := State.mem_pressedKeys_of_keyDown hl
  have hsorted := s.pressedKeys_sorted.imp le_of_lt
  rw [hk] at hmem hsorted
  rw [State.scanWinner, hmode]
  exact hsorted.rel_getLast hmem

/-- Settles O38: by whether a key is pressed. -/
theorem keyWait : Obligations.KeyWait := by
  intro x s
  refine ⟨fun hup => exec_ldVxK_wait x (State.pressedKeys_nil hup), fun j hj => ?_, fun hrunning hinRange hi hup => ?_⟩
  · cases hk : s.pressedKeys with
    | nil =>
      have hmem := State.mem_pressedKeys_of_keyDown hj
      rw [hk] at hmem
      cases hmem
    | cons k ks =>
      exact ⟨(s.scanWinner k ks).val, (s.scanWinner k ks).isLt, State.scanWinner_keyDown hk, exec_ldVxK_scan x hk,
        fun hmode _ => State.scanWinner_lowest hk hmode, fun hmode _ => State.scanWinner_highest hk hmode⟩
  · rw [step_of_decodeWord_ok hrunning hinRange hi, exec_ldVxK_wait x (State.pressedKeys_nil fun k _ => hup k),
      endOfCycle, State.endCycle_of_running hrunning]

/-! ### Timers -/

/-- Settles O39: each of the three is one write and the advance of PC. -/
theorem timerMoves : Obligations.TimerMoves := by
  intro x s
  exact ⟨exec_ldVxDt x s, exec_ldDtVx x s, exec_ldStVx x s⟩

/-- The tick's sound trigger as a number (R252). -/
theorem State.tick_soundPending_iff (s : State) :
    s.tick.soundPending = true ↔ s.soundPending = true ∨ s.st.toNat = 1 := by
  rw [State.tick_soundPending, Bool.or_eq_true, State.trigger_iff]

/-- Settles O41: the two countdowns and the trigger. -/
theorem tickLaw : Obligations.TickLaw := by
  intro s
  exact ⟨countdown_toNat s.dt, countdown_toNat s.st, s.tick_soundPending_iff, rfl⟩

/-- Settles O40: the tick of the state each of the three leaves. -/
theorem timerMoveCycles : Obligations.TimerMoveCycles := by
  intro x s hrunning hinRange
  have hstep {i : Instr} {t : State} (hi : decodeWord s.opcodeAtPc = .ok i) (hexec : exec i s = .next t)
      (ht : t.status = .running) : step s = .next t.tick := by
    rw [step_of_decodeWord_ok hrunning hinRange hi, hexec, endOfCycle, State.endCycle_of_running ht]
  refine ⟨fun hi => ?_, fun hi => ?_, fun hi => ?_⟩
  · exact ⟨_, hstep hi (exec_ldVxDt x s) hrunning, Vector.getElem_set_self x.isLt, countdown_toNat s.dt, rfl⟩
  · exact ⟨_, hstep hi (exec_ldDtVx x s) hrunning, countdown_toNat (s.getV x), rfl, rfl⟩
  · exact ⟨_, hstep hi (exec_ldStVx x s) hrunning, countdown_toNat (s.getV x), State.tick_soundPending_iff _, rfl, rfl⟩

/-- Settles O42: by induction on the ticks, the last one split off. -/
theorem timersAfterTicks : Obligations.TimersAfterTicks := by
  intro n s
  induction n with
  | zero =>
    have hnone : ¬ (0 < s.st.toNat ∧ s.st.toNat ≤ 0) := by omega
    exact ⟨rfl, rfl, (or_iff_left hnone).symm⟩
  | succ n ih =>
    obtain ⟨hdt, hst, hsound⟩ := ih
    rw [Function.iterate_succ_apply']
    refine ⟨?_, ?_, ?_⟩
    · rw [State.tick_dt, countdown_toNat, hdt, Nat.sub_sub]
    · rw [State.tick_st, countdown_toNat, hst, Nat.sub_sub]
    · rw [State.tick_soundPending_iff, hsound, hst, or_assoc]
      refine or_congr_right ?_
      omega

/-! ### The idle state -/

/-- Ticks touch the timers and sound_pending only. -/
theorem State.tick_iterate_eq (n : Nat) (s : State) :
    State.tick^[n] s =
      { s with dt := (State.tick^[n] s).dt, st := (State.tick^[n] s).st,
               soundPending := (State.tick^[n] s).soundPending } := by
  induction n with
  | zero => rfl
  | succ n ih =>
    rw [Function.iterate_succ_apply', ih]
    rfl

/-- A cycle of an idle state is the tick: the jump leaves PC where it is (R300). -/
theorem State.Idle.step_eq_tick {s : State} (h : s.Idle)
    (hinRange : s.cfg.addrOorPolicy = .wrap ∨ s.pc.toNat + 1 ≤ 0x0FFF) : step s = .next s.tick := by
  obtain ⟨hrunning, nnn, hi, hpc⟩ := h
  have hexec : exec (.jp nnn) s = .next s := by rw [exec_jp, ← hpc]
  rw [step_of_decodeWord_ok hrunning hinRange hi, hexec, endOfCycle, State.endCycle_of_running hrunning]

theorem State.Idle.tick {s : State} (h : s.Idle) : s.tick.Idle := h

theorem State.Idle.tick_iterate {s : State} (h : s.Idle) (n : Nat) : (State.tick^[n] s).Idle := by
  rw [State.tick_iterate_eq]
  exact h

/-- The cycles of an idle state are ticks. -/
theorem State.Idle.cycles_eq {s : State} (h : s.Idle)
    (hinRange : s.cfg.addrOorPolicy = .wrap ∨ s.pc.toNat + 1 ≤ 0x0FFF) (n : Nat) :
    cycles n s = .next (State.tick^[n] s) := by
  induction n generalizing s with
  | zero => rfl
  | succ n ih =>
    rw [cycles, h.step_eq_tick hinRange]
    exact ih h.tick hinRange

/-- With both timers at 0 the tick changes nothing. -/
theorem State.tick_of_timers_zero {s : State} (hdt : s.dt.toNat = 0) (hst : s.st.toNat = 0) : s.tick = s := by
  have hdt' : countdown s.dt = s.dt := BitVec.eq_of_toNat_eq (by rw [countdown_toNat, hdt])
  have hst' : countdown s.st = s.st := BitVec.eq_of_toNat_eq (by rw [countdown_toNat, hst])
  have htrigger : s.trigger = false := by
    rw [Bool.eq_false_iff, ne_eq, State.trigger_iff]
    omega
  rw [State.tick, hdt', hst', htrigger, Bool.or_false]

/-- Settles O60: the cycles are ticks; after 255 of them both timers are 0, so the step of the idle state reached, which
is again the tick, changes nothing. -/
theorem idleRunsDownToFixedPoint : Obligations.IdleRunsDownToFixedPoint := by
  intro s n hidle hinRange
  obtain ⟨hdt, hst, hsound⟩ := timersAfterTicks n s
  refine ⟨State.tick^[n] s, hidle.cycles_eq hinRange n, State.tick_iterate_eq n s, hdt, hst, hsound, fun hn => ?_⟩
  have hdt_max := s.dt.isLt
  have hst_max := s.st.isLt
  have hstep : step (State.tick^[n] s) = .next (State.tick^[n] s).tick := by
    refine (hidle.tick_iterate n).step_eq_tick ?_
    rw [State.tick_iterate_eq]
    exact hinRange
  rw [State.FixedPoint, hstep, State.tick_of_timers_zero]
  · omega
  · omega

end Sys2Proof.Machine

/-! PROOFS. Load and the host's other operations (spec/70_reset_and_hazards.md rules R290, R291; spec/60_exceptions.md
rules R257, R258, R262). -/

namespace Sys2Proof.Machine

/-! ### Load -/

theorem State.load_of_fits (s : State) {bytes : List Byte} (h : bytes.length ≤ 3584) :
    s.load bytes = (s.loaded []).writeBytes 0x200 bytes :=
  (if_pos (by omega)).trans (s.loaded_eq_writeBytes bytes)

theorem State.load_of_oversized (s : State) {bytes : List Byte} (h : 3584 < bytes.length) :
    s.load bytes = (s.loaded []).raise (.loadError bytes.length) := if_neg (by omega)

/-- The memory of an empty program is the background: the font, then zeros (R61, R64). -/
theorem State.readByte_loaded_nil (s : State) (a : Nat) :
    (s.loaded []).readByte a = background s.cfg.font (effective a) := rfl

theorem background_font (font : Vector Byte 80) {a : Nat} (h : a < 80) : background font a = font[a] := dif_pos h

theorem background_zero (font : Vector Byte 80) {a : Nat} (h : 80 ≤ a) : background font a = 0 := dif_neg (by omega)

/-- Memory after a load that fits: the program from 0x200, the background elsewhere (R290). -/
theorem State.readByte_load (s : State) {bytes : List Byte} (h : bytes.length ≤ 3584) :
    (∀ k, (hk : k < bytes.length) → (s.load bytes).readByte (0x200 + k) = bytes[k]) ∧
    (∀ a, a < 4096 → (a < 0x200 ∨ 0x200 + bytes.length ≤ a) →
      (s.load bytes).readByte a = background s.cfg.font a) := by
  have hblock := (s.loaded []).readByte_writeBytes 0x200 bytes (by omega)
  rw [State.load_of_fits s h]
  refine ⟨fun k hk => (hblock _).1 k hk rfl, fun a ha hout => ?_⟩
  have houtside : ∀ k, k < bytes.length → effective a ≠ effective (0x200 + k) := by
    intro k hk
    rw [effective_of_lt ha, effective_of_lt (by omega)]
    omega
  rw [(hblock a).2 houtside, State.readByte_loaded_nil, effective_of_lt ha]

/-- Settles O49: all but memory is as the load of an empty program leaves it, and memory is the program on the
background. -/
theorem loadResets : Obligations.LoadResets := by
  intro s bytes hlen
  obtain ⟨hprogram, hrest⟩ := s.readByte_load hlen
  have hfont (k : Fin 80) : (s.load bytes).readByte k.val = s.cfg.font[k.val] := by
    rw [hrest k.val (by omega) (.inl (by omega)), background_font _ k.isLt]
  have hzero (a : Nat) (ha : a < 4096) (h80 : 80 ≤ a) (hout : a < 0x200 ∨ 0x200 + bytes.length ≤ a) :
      (s.load bytes).readByte a = 0 := by
    rw [hrest a ha hout, background_zero _ h80]
  obtain ⟨m, hm⟩ : ∃ m, s.load bytes = { s.loaded [] with mem := m } :=
    ⟨_, (s.load_of_fits hlen).trans (State.writeBytes_eq _ _ _)⟩
  rw [hm] at hprogram hfont hzero
  exact ⟨_, congrArg Host.Outcome.next hm, rfl, fun r => Vector.getElem_replicate r.isLt, rfl, rfl,
    fun k => Vector.getElem_replicate k.isLt, rfl, rfl, rfl, Framebuffer.cell_blank, rfl, rfl, rfl, rfl, rfl, rfl, rfl,
    hfont, fun k => hprogram k.val k.isLt, hzero⟩

/-- Settles O50: an oversized load enters LoadError on the load of the empty program. -/
theorem loadErrorLeavesCleanReset : Obligations.LoadErrorLeavesCleanReset := by
  intro s bytes hlen
  have hload := s.load_of_oversized hlen
  refine ⟨_, _, rfl, rfl, hload, ?_, ?_⟩
  · rw [Operation.reply, hload]
    rfl
  · rw [hload]
    exact stepRefusedUnlessRunning _ Status.noConfusion

/-- Settles O51: with keys up, what the load of the empty program keeps of the machine is what the statement names. -/
theorem resetIsLoadOfEmptyProgram : Obligations.ResetIsLoadOfEmptyProgram := by
  rintro s ⟨-, hkeys, -, -⟩
  have hkey : s.key = Vector.replicate 16 false := by
    ext k hk
    simpa using hkeys ⟨k, hk⟩
  rw [State.load_of_fits s (Nat.zero_le _)]
  simp [State.loaded, State.reset, State.writeBytes, hkey]

/-! ### The other operations -/

/-- Settles O52: operation by operation. -/
theorem hostKeyAndFlagOperations : Obligations.HostKeyAndFlagOperations := by
  intro s k p big hbig
  exact ⟨dif_pos k.isLt, dif_neg (by omega), rfl, rfl, rfl, rfl, rfl, rfl⟩

end Sys2Proof.Machine

/-! PROOFS. What a step does not depend on (spec/00_scope.md rule R7, spec/10_state.md rules R31, R33, R34): one
machine in two surroundings, that is, with other parameters, keys and output flags, takes the same step where its
instruction reads none of what differs. The three independence statements are this one fact for three choices of
surroundings. -/

namespace Sys2Proof.Machine

/-! ### A state within other surroundings -/

/-- The part of a state no instruction computes with, but for the few that read it: parameters, keys, output flags. -/
structure Surroundings where
  cfg : Config
  key : Vector Bool 16
  redrawPending : Bool
  soundPending : Bool

/-- The state with its surroundings replaced. -/
def State.within (s : State) (e : Surroundings) : State :=
  { s with cfg := e.cfg, key := e.key, redrawPending := e.redrawPending, soundPending := e.soundPending }

theorem State.getV_within (s : State) (e : Surroundings) (x : Reg) : (s.within e).getV x = s.getV x := rfl

theorem State.setV_within (s : State) (e : Surroundings) (x : Reg) (b : Byte) :
    (s.within e).setV x b = (s.setV x b).within e := rfl

theorem State.next_within (s : State) (e : Surroundings) : (s.within e).next = s.next.within e := rfl

theorem State.atI_within (s : State) (e : Surroundings) (k : Nat) : (s.within e).atI k = s.atI k := rfl

theorem State.skipIf_within (s : State) (e : Surroundings) (c : Bool) :
    (s.within e).skipIf c = (s.skipIf c).within e := by
  cases c <;> rfl

theorem State.pushJump_within (s : State) (e : Surroundings) (target : Word) :
    (s.within e).pushJump target = (s.pushJump target).within e := by
  by_cases hfree : s.sp.val < 16
  · rw [State.pushJump_of_lt s _ hfree, State.pushJump_of_lt (s.within e) _ hfree]
    rfl
  · have hfull : s.sp.val = 16 := by omega
    rw [State.pushJump_full s _ hfull, State.pushJump_full (s.within e) _ hfull]
    rfl

theorem State.popReturn_within (s : State) (e : Surroundings) : (s.within e).popReturn = s.popReturn.within e := by
  by_cases hempty : s.sp.val = 0
  · rw [State.popReturn_empty s hempty, State.popReturn_empty (s.within e) hempty]
    rfl
  · rw [State.popReturn_of_pos s hempty, State.popReturn_of_pos (s.within e) hempty]
    rfl

section Memory

variable {s : State} {e : Surroundings}

theorem State.readByte_within (hfont : e.cfg.font = s.cfg.font) (a : Nat) : (s.within e).readByte a = s.readByte a := by
  simp only [State.readByte, State.within, hfont]

theorem State.writeByte_within (hfont : e.cfg.font = s.cfg.font) (a : Nat) (b : Byte) :
    (s.within e).writeByte a b = (s.writeByte a b).within e := by
  simp only [State.writeByte, State.within, hfont]

theorem State.writeBytes_within (hfont : e.cfg.font = s.cfg.font) (base : Nat) (bs : List Byte) :
    (s.within e).writeBytes base bs = (s.writeBytes base bs).within e := by
  induction bs generalizing s base with
  | nil => rfl
  | cons b bs ih =>
    rw [State.writeBytes, State.writeByte_within hfont, State.writeBytes]
    exact ih (s := s.writeByte base b) hfont (base + 1)

theorem State.storeRegs_within (hfont : e.cfg.font = s.cfg.font) (base n : Nat) :
    (s.within e).storeRegs base n = (s.storeRegs base n).within e := by
  induction n with
  | zero => rfl
  | succ k ih =>
    rw [State.storeRegs, State.storeRegs, ih]
    split
    · exact State.writeByte_within (by simpa using hfont) _ _
    · rfl

theorem State.loadRegs_within (hfont : e.cfg.font = s.cfg.font) (base n : Nat) :
    (s.within e).loadRegs base n = (s.loadRegs base n).within e := by
  induction n with
  | zero => rfl
  | succ k ih =>
    rw [State.loadRegs, State.loadRegs, ih]
    split
    · rw [State.readByte_within hfont, State.setV_within]
    · rfl

theorem State.drawing_within (hfont : e.cfg.font = s.cfg.font) (x y : Reg) (n : Fin 16) :
    (s.within e).drawing x y n = s.drawing x y n := by
  have hsprite : (s.within e).sprite n.val = s.sprite n.val := by
    simp only [State.sprite, State.readBytes, State.readByte_within hfont, State.atI_within]
  rw [State.drawing, hsprite]
  rfl

theorem State.opcodeAtPc_within (hfont : e.cfg.font = s.cfg.font) : (s.within e).opcodeAtPc = s.opcodeAtPc := by
  rw [State.opcodeAtPc, State.readByte_within hfont, State.readByte_within hfont]
  rfl

end Memory

/-! ### Answers that agree but for the surroundings -/

/-- `Agree s e a b`: where `b` is an answer of `s` and `a` the same operation's answer of `s.within e`, both stop alike,
or the next states differ in the surroundings only, and in a flag only if that flag differed before, or, for
redraw_pending, its policy. -/
inductive Agree (s : State) (e : Surroundings) : Result → Result → Prop
  | next (t : State) (r p : Bool)
      (hr : e.redrawPending = s.redrawPending → e.cfg.drwRedraw = s.cfg.drwRedraw → r = t.redrawPending)
      (hp : e.soundPending = s.soundPending → p = t.soundPending) :
      Agree s e (.next (t.within { e with redrawPending := r, soundPending := p })) (.next t)
  | fault (r : Fault) : Agree s e (.fault r) (.fault r)
  | refused (r : Refusal) : Agree s e (.refused r) (.refused r)

section Agreement

variable {s : State} {e : Surroundings}

theorem Agree.of_next {a b : Result} {t : State} {r p : Bool} (hb : b = .next t)
    (ha : a = .next (t.within { e with redrawPending := r, soundPending := p }))
    (hr : e.redrawPending = s.redrawPending → e.cfg.drwRedraw = s.cfg.drwRedraw → r = t.redrawPending)
    (hp : e.soundPending = s.soundPending → p = t.soundPending) : Agree s e a b := by
  rw [ha, hb]
  exact .next t r p hr hp

/-- A next state that has the flags as before agrees with itself within `e`. -/
theorem Agree.kept {a b : Result} {t : State} (hb : b = .next t) (ha : a = .next (t.within e))
    (hr : t.redrawPending = s.redrawPending) (hp : t.soundPending = s.soundPending) : Agree s e a b :=
  .of_next hb ha (fun h _ => h.trans hr.symm) (fun h => h.trans hp.symm)

/-- A conditional skip, its condition read from the state. -/
theorem State.skipIf_agree (c : Bool) : Agree s e (.next ((s.within e).skipIf c)) (.next (s.skipIf c)) :=
  .kept rfl (by rw [State.skipIf_within]) (by simp) (by simp)

theorem State.withAddress_agree {n : Nat} {go go' : Result}
    (h : e.cfg.addrOorPolicy = s.cfg.addrOorPolicy ∨ n ≤ 0x0FFF) (hgo : Agree s e go' go) :
    Agree s e ((s.within e).withAddress n go') (s.withAddress n go) := by
  rcases h with h | h
  · have h' : (s.within e).cfg.addrOorPolicy = s.cfg.addrOorPolicy := h
    unfold State.withAddress
    rw [h']
    split
    · exact hgo
    · split
      · exact .fault _
      · exact hgo
  · rw [State.withAddress_go _ _ _ (.inr h), State.withAddress_go _ _ _ (.inr h)]
    exact hgo

theorem State.withKey_agree {value : Byte} {go go' : Bool → Result} (hkey : e.key = s.key)
    (h : e.cfg.keyIndexMode = s.cfg.keyIndexMode ∨ value.toNat ≤ 15) (hgo : ∀ down, Agree s e (go' down) (go down)) :
    Agree s e ((s.within e).withKey value go') (s.withKey value go) := by
  have hkey' : (s.within e).key = s.key := hkey
  rcases h with h | h
  · have h' : (s.within e).cfg.keyIndexMode = s.cfg.keyIndexMode := h
    unfold State.withKey
    rw [h', hkey']
    split
    · exact hgo _
    · exact hgo _
    · split
      · exact hgo _
      · exact .fault _
  · rw [State.withKey_go _ _ _ (.inr h), State.withKey_go _ _ _ (.inr h), State.keyDown, hkey', ← State.keyDown]
    exact hgo _

theorem State.writeFlagged_agree {x : Reg} {r : Flagged} (h : e.cfg.vfDestOrder = s.cfg.vfDestOrder ∨ x ≠ VF) :
    Agree s e ((s.within e).writeFlagged x r) (s.writeFlagged x r) := by
  rcases h with h | h
  · have h' : (s.within e).cfg.vfDestOrder = s.cfg.vfDestOrder := h
    unfold State.writeFlagged
    rw [h']
    split
    · exact .kept rfl rfl rfl rfl
    · exact .kept rfl rfl rfl rfl
    · split
      · exact .refused _
      · exact .kept rfl rfl rfl rfl
  · rw [State.writeFlagged_last _ _ _ (.inr h), State.writeFlagged_last _ _ _ (.inr h)]
    exact .kept rfl rfl rfl rfl

theorem State.shiftOperand_within {x y : Reg} (h : e.cfg.shiftSource = s.cfg.shiftSource ∨ x = y) :
    (s.within e).shiftOperand x y = s.shiftOperand x y := by
  rcases h with h | rfl
  · have h' : (s.within e).cfg.shiftSource = s.cfg.shiftSource := h
    rw [State.shiftOperand, h']
    rfl
  · unfold State.shiftOperand
    split <;> split <;> rfl

theorem State.storedI_within {sum : Nat} (h : e.cfg.iStoreMask = s.cfg.iStoreMask ∨ sum ≤ 0x0FFF) :
    (s.within e).storedI sum = s.storedI sum := by
  apply BitVec.eq_of_toNat_eq
  rw [State.storedI_toNat, State.storedI_toNat]
  rcases h with h | h
  · have h' : (s.within e).cfg.iStoreMask = s.cfg.iStoreMask := h
    rw [h']
  · split <;> split <;> omega

theorem State.pressedKeys_within (hkey : e.key = s.key) : (s.within e).pressedKeys = s.pressedKeys := by
  have hkey' : (s.within e).key = s.key := hkey
  simp only [State.pressedKeys, hkey']

theorem State.scanWinner_within {k : Reg} {ks : List Reg}
    (h : e.cfg.keyScanWinner = s.cfg.keyScanWinner ∨ (k :: ks).length ≤ 1) :
    (s.within e).scanWinner k ks = s.scanWinner k ks := by
  rcases h with h | h
  · have h' : (s.within e).cfg.keyScanWinner = s.cfg.keyScanWinner := h
    rw [State.scanWinner, h']
    rfl
  · obtain rfl : ks = [] := by simpa using h
    rw [List.mem_singleton.1 ((s.within e).scanWinner_mem k []), List.mem_singleton.1 (s.scanWinner_mem k [])]

/-- The tick reads no surroundings but the flag it raises. -/
theorem Agree.endOfCycle {a b : Result} (h : Agree s e a b) : Agree s e (endOfCycle a) (endOfCycle b) := by
  cases h with
  | next t r p hr hp =>
    by_cases hrunning : t.status = .running
    · rw [Machine.endOfCycle, Machine.endOfCycle, State.endCycle_of_running hrunning,
        State.endCycle_of_running (s := t.within _) hrunning]
      exact .next t.tick r (p || t.trigger) hr fun h => by rw [hp h]; rfl
    · rw [Machine.endOfCycle, Machine.endOfCycle, State.endCycle_of_not_running hrunning,
        State.endCycle_of_not_running (s := t.within _) hrunning]
      exact .next t r p hr hp
  | fault r => exact .fault r
  | refused r => exact .refused r

end Agreement

/-! ### Instructions and steps -/

/-- The three instructions that read the key matrix (R220 to R222). -/
def ReadsKeys (i : Instr) : Prop := ∃ x, i = .skp x ∨ i = .sknp x ∨ i = .ldVxK x

/-- An instruction that reads nothing of what differs has answers that agree. -/
theorem exec_agree {s : State} {e : Surroundings} {i : Instr} (h : InsensitiveTo s i e.cfg)
    (hkey : ReadsKeys i → e.key = s.key) : Agree s e (exec i (s.within e)) (exec i s) := by
  have hfont := h.font
  cases i with
  | sys nnn =>
    have hpolicy : (s.within e).cfg.sysPolicy = s.cfg.sysPolicy := h.sysPolicy.resolve_right fun hne => hne nnn rfl
    cases hp : s.cfg.sysPolicy with
    | fault =>
      rw [exec_sys_fault nnn hp, exec_sys_fault nnn (hpolicy.trans hp)]
      exact .kept rfl rfl rfl rfl
    | nop =>
      rw [exec_sys_nop nnn hp, exec_sys_nop nnn (hpolicy.trans hp)]
      exact .kept rfl rfl rfl rfl
  | cls => exact .of_next (r := true) (exec_cls s) rfl (fun _ _ => rfl) id
  | ret =>
    exact .kept (exec_ret s) (by rw [exec_ret, State.popReturn_within]) (by simp) (by simp)
  | call nnn =>
    exact .kept (exec_call nnn s) (by rw [exec_call, State.pushJump_within]) (by simp) (by simp)
  | seByte | sneByte | seReg | sneReg => exact State.skipIf_agree _
  | jp | jpV0 | ldByte | addByte | ldReg | orReg | andReg | xorReg | ldI | rnd | ldVxDt | ldDtVx | ldStVx | ldF =>
    exact .kept rfl rfl rfl rfl
  | addReg x y => exact State.writeFlagged_agree (h.vfDestOrder.imp_right fun hne => hne x y (.inl rfl))
  | subReg x y => exact State.writeFlagged_agree (h.vfDestOrder.imp_right fun hne => hne x y (.inr (.inl rfl)))
  | subn x y =>
    exact State.writeFlagged_agree (h.vfDestOrder.imp_right fun hne => hne x y (.inr (.inr (.inr (.inl rfl)))))
  | shr x y =>
    rw [exec_shr, exec_shr, State.shiftOperand_within (h.shiftSource.imp_right fun heq => heq x y (.inl rfl))]
    exact State.writeFlagged_agree (h.vfDestOrder.imp_right fun hne => hne x y (.inr (.inr (.inl rfl))))
  | shl x y =>
    rw [exec_shl, exec_shl, State.shiftOperand_within (h.shiftSource.imp_right fun heq => heq x y (.inr rfl))]
    exact State.writeFlagged_agree (h.vfDestOrder.imp_right fun hne => hne x y (.inr (.inr (.inr (.inr rfl)))))
  | drw x y n =>
    rw [exec_drw, exec_drw, State.drawing_within hfont]
    refine State.withAddress_agree (h.addrOorPolicy.imp_right fun hle => ?_) ?_
    · split
      case isTrue => exact Nat.zero_le _
      case isFalse hn => exact hle.2 _ (if_neg hn)
    · refine .of_next (r := (s.within e).redrawAfter (s.drawing x y n).1) rfl rfl (fun hr hpolicy => ?_) id
      have hr' : (s.within e).redrawPending = s.redrawPending := hr
      have hpolicy' : (s.within e).cfg.drwRedraw = s.cfg.drwRedraw := hpolicy
      rw [State.redrawAfter, hpolicy', hr']
      rfl
  | skp x =>
    rw [exec_skp, exec_skp]
    exact State.withKey_agree (hkey ⟨x, .inl rfl⟩) (h.keyIndexMode.imp_right fun hle => hle x (.inl rfl))
      fun down => State.skipIf_agree down
  | sknp x =>
    rw [exec_sknp, exec_sknp]
    exact State.withKey_agree (hkey ⟨x, .inr (.inl rfl)⟩) (h.keyIndexMode.imp_right fun hle => hle x (.inr rfl))
      fun down => State.skipIf_agree !down
  | ldVxK x =>
    have hpressed := State.pressedKeys_within (hkey ⟨x, .inr (.inr rfl)⟩)
    cases hk : s.pressedKeys with
    | nil =>
      rw [exec_ldVxK_wait x hk, exec_ldVxK_wait x (hpressed.trans hk)]
      exact .kept rfl rfl rfl rfl
    | cons k ks =>
      have hwinner := State.scanWinner_within (h.keyScanWinner.imp_right fun hle => hk ▸ hle x rfl)
      rw [exec_ldVxK_scan x hk, exec_ldVxK_scan x (hpressed.trans hk), hwinner]
      exact .kept rfl rfl rfl rfl
  | addI x =>
    have hstored : (s.within e).storedI (s.indexSum x) = s.storedI (s.indexSum x) :=
      State.storedI_within (h.iStoreMask.imp_right fun hle => hle x rfl)
    refine .kept (exec_addI x s) ?_ rfl rfl
    rw [exec_addI, show (s.within e).indexSum x = s.indexSum x from rfl, hstored]
    rfl
  | ldB x =>
    rw [exec_ldB, exec_ldB, State.writeBytes_within hfont]
    exact State.withAddress_agree (h.addrOorPolicy.imp_right fun hle => hle.2 _ rfl) (.kept rfl rfl (by simp) (by simp))
  | storeRegs x =>
    rw [exec_storeRegs, exec_storeRegs, State.storeRegs_within hfont]
    exact State.withAddress_agree (h.addrOorPolicy.imp_right fun hle => hle.2 _ rfl) (.kept rfl rfl (by simp) (by simp))
  | loadRegs x =>
    rw [exec_loadRegs, exec_loadRegs, State.loadRegs_within hfont]
    exact State.withAddress_agree (h.addrOorPolicy.imp_right fun hle => hle.2 _ rfl) (.kept rfl rfl (by simp) (by simp))

/-- A step whose instruction reads nothing of what differs has answers that agree. -/
theorem step_agree {s : State} {e : Surroundings} (hfont : e.cfg.font = s.cfg.font)
    (haddr : e.cfg.addrOorPolicy = s.cfg.addrOorPolicy ∨ s.pc.toNat + 1 ≤ 0x0FFF)
    (hi : ∀ i, decodeWord s.opcodeAtPc = .ok i → InsensitiveTo s i e.cfg ∧ (ReadsKeys i → e.key = s.key)) :
    Agree s e (step (s.within e)) (step s) := by
  have hrun : Agree s e (runWord (s.within e) (s.within e).opcodeAtPc) (runWord s s.opcodeAtPc) := by
    rw [State.opcodeAtPc_within hfont]
    cases hd : decodeWord s.opcodeAtPc with
    | ok i =>
      obtain ⟨hcfg, hkey⟩ := hi i hd
      rw [runWord_of_decodeWord_ok _ hd, runWord_of_decodeWord_ok _ hd]
      exact (exec_agree hcfg hkey).endOfCycle
    | error r =>
      rw [runWord_of_decodeWord_error _ hd, runWord_of_decodeWord_error _ hd]
      exact .kept rfl rfl rfl rfl
  unfold step
  rw [show (s.within e).status = s.status from rfl]
  split
  · exact State.withAddress_agree haddr hrun
  · exact .refused _
  · exact .refused _

/-! ### What an agreement says in the terms of the statements -/

section Agreement

variable {s : State} {e : Surroundings} {a b : Result}

/-- With the keys and sound_pending as before, the program sees no difference. -/
theorem Agree.viewResult_eq (h : Agree s e a b) (hkey : ∀ t, b = .next t → t.key = e.key)
    (hsound : e.soundPending = s.soundPending) : viewResult a = viewResult b := by
  cases h with
  | next t r p hr hp => simp only [viewResult, State.view, State.within, hkey t rfl, hp hsound]
  | fault | refused => rfl

/-- With the parameters and keys as before, the answers differ in the flags only. -/
theorem Agree.withoutFlags_eq (h : Agree s e a b) (hkept : ∀ t, b = .next t → t.cfg = e.cfg ∧ t.key = e.key) :
    withoutFlags a = withoutFlags b := by
  cases h with
  | next t r p =>
    obtain ⟨hcfg, hkey⟩ := hkept t rfl
    simp only [withoutFlags, State.within, hcfg, hkey]
  | fault | refused => rfl

/-- With the parameters and flags as before, the next states differ in the keys only. -/
theorem Agree.next_with_key {t : State} (h : Agree s e a (.next t)) (ht : t.cfg = e.cfg) (hcfg : e.cfg = s.cfg)
    (hredraw : e.redrawPending = s.redrawPending) (hsound : e.soundPending = s.soundPending) :
    a = .next { t with key := e.key } := by
  cases h with
  | next _ r p hr hp => simp only [State.within, ht, hr hredraw (congrArg Config.drwRedraw hcfg), hp hsound]

end Agreement

/-! ### The obligations -/

theorem InsensitiveTo.refl (s : State) (i : Instr) : InsensitiveTo s i s.cfg where
  font := rfl
  sysPolicy := .inl rfl
  shiftSource := .inl rfl
  vfDestOrder := .inl rfl
  iStoreMask := .inl rfl
  addrOorPolicy := .inl rfl
  keyIndexMode := .inl rfl
  keyScanWinner := .inl rfl

/-- No step writes parameters or keys. -/
theorem step_keeps_cfg_and_key {s t : State} (h : step s = .next t) : t.cfg = s.cfg ∧ t.key = s.key := by
  obtain ⟨-, ⟨i, u, -, hexec, rfl⟩ | ⟨-, -, rfl⟩⟩ := step_cases h
  · obtain ⟨hcfg, hkey, -⟩ := (exec_effect hexec).surroundings_eq
    unfold State.endCycle
    split
    · exact ⟨hcfg, hkey⟩
    · exact ⟨hcfg, hkey⟩
  · exact ⟨rfl, rfl⟩

/-- Settles O57: the surroundings that differ in the parameters. -/
theorem stepInsensitiveToParameters : Obligations.StepInsensitiveToParameters := by
  intro s c hins hfont haddr
  have h := step_agree (e := ⟨c, s.key, s.redrawPending, s.soundPending⟩) hfont haddr
    fun i hi => ⟨hins i hi, fun _ => rfl⟩
  exact h.viewResult_eq (fun t ht => (step_keeps_cfg_and_key ht).2) rfl

/-- Settles O58: the surroundings that differ in the flags. -/
theorem stepIgnoresFlags : Obligations.StepIgnoresFlags := by
  intro s r p
  have h := step_agree (e := ⟨s.cfg, s.key, r, p⟩) rfl (.inl rfl) fun i _ => ⟨InsensitiveTo.refl s i, fun _ => rfl⟩
  exact h.withoutFlags_eq fun t ht => step_keeps_cfg_and_key ht

/-- Settles O59: the surroundings that differ in the keys. -/
theorem onlyKeyInstructionsReadKeys : Obligations.OnlyKeyInstructionsReadKeys := by
  intro s t hstep
  refine ⟨(step_keeps_cfg_and_key hstep).2, fun hword key => ?_⟩
  have hreads (i : Instr) (hi : decodeWord s.opcodeAtPc = .ok i) : ¬ ReadsKeys i := by
    rintro ⟨x, rfl | rfl | rfl⟩
    · exact (hword x).1 hi
    · exact (hword x).2.1 hi
    · exact (hword x).2.2 hi
  have h := step_agree (e := ⟨s.cfg, key, s.redrawPending, s.soundPending⟩) rfl (.inl rfl)
    fun i hi => ⟨InsensitiveTo.refl s i, fun hr => absurd hr (hreads i hi)⟩
  rw [hstep] at h
  exact h.next_with_key (step_keeps_cfg_and_key hstep).1 rfl rfl rfl

end Sys2Proof.Machine
